-- ==== Sys2Proof/Word.lean ====
section
/-! DEFINITION. The plain words of QDEC: line identifiers, quadrature states, data words, line levels, and the
three operation formats of spec/30_encoding.md section 3. -/

namespace Sys2Proof

/-- An input-line identifier, PINW = 16 bits, opaque to QDEC (R11, R32). -/
abbrev PinId := BitVec 16

/-- A packed quadrature state: bit 1 = I line, bit 0 = Q line (R12, R45). -/
abbrev QState := BitVec 2

/-- The 32-bit data word of a response and of a command's `arg` field (R49, R55). -/
abbrev DataWord := BitVec 32

/-- A host command word `cmd[39:0]` (R49). -/
abbrev CmdWord := BitVec 40

/-- The answer of the platform's `readDigitalInput` (R33). -/
inductive Level where
  | low
  | high
deriving DecidableEq, Repr, Inhabited

/-- One item of one of QDEC's three formats (spec/30_encoding.md section 3). -/
inductive Packet where
  /-- Format EV, 1 bit: the level of the `tick` strobe (R59). -/
  | ev (strobe : BitVec 1)
  /-- Format CMD, 40 bits: a host command word (R49). -/
  | cmd (w : CmdWord)
  /-- Format TT, 4 bits: a table index (p, c) (R47). -/
  | tt (idx : BitVec 4)
deriving DecidableEq, Repr

end Sys2Proof
end

