-- ==== Sys2Proof/Config.lean ====
section
/-! DEFINITION. The configuration parameters of spec/00_scope.md section 5 and the free values.

The parameters marked OPEN there are not numbers of this model: each is computed from an opaque constant that has no
body, so no proof can learn its value. The arithmetic around the opaque constant only keeps it inside the range that
R4 demands, and reaches every value of that range (Sys2Proof/Laws/Config.lean proves both). Log entry 1. -/

namespace Sys2Proof.Config

/-- Opaque, without a body: the choice of MAX_ENCODERS in 1..16. -/
opaque rawMaxEncoders : Fin 16

/-- Opaque, without a body: the choice of CW in 2..32. -/
opaque rawCw : Fin 31

/-- Opaque, without a body: the choice of TW >= 1. -/
opaque rawTw : Nat

/-- Opaque, without a body: the choice of INVALID_DELTA. -/
opaque rawInvalid : Nat

/-- Opaque, without a body: the choice of DEFAULT_RATE_HZ in 250..20000. -/
opaque rawDefaultRate : Fin 19751

/-- Opaque, without a body: the choice of TimerIncrement. -/
opaque rawTimerIncrement : Nat → Nat

/-- MAX_ENCODERS, the registry capacity, 1..16 (R4, D3). -/
def maxEncoders : Nat := rawMaxEncoders.val + 1

/-- CW, the width of a position counter, 2..32 (R4, D4). -/
def cw : Nat := rawCw.val + 2

/-- TW, the width of `incr` and `deadline`, at least 1 (R4, D14). -/
def tw : Nat := rawTw + 1

/-- RATE_MIN (R5). -/
def rateMin : Nat := 250

/-- RATE_MAX (R5). -/
def rateMax : Nat := 20000

/-- DEFAULT_RATE_HZ, 250..20000 (R4, D13). -/
def defaultRateHz : Nat := rawDefaultRate.val + 250

/-- The admissible sentinel number `raw` at counter width `w`: a signed `w`-bit value, none of -1, 0, +1. The patterns
2 .. 2^w - 2 are exactly the admissible ones (R4, D5). -/
def sentinel (w raw : Nat) : Int := (BitVec.ofNat w (2 + raw % (2 ^ w - 3))).toInt

/-- INVALID_DELTA (R4, D5). -/
def invalidDelta : Int := sentinel cw rawInvalid

/-- The admissible increment number `raw` at timer width `w`: 1 .. 2^w - 1 (R4, D14). -/
def increment (w raw : Nat) : BitVec w := BitVec.ofNat w (1 + raw % (2 ^ w - 1))

/-- TimerIncrement(hz), a function of the rate alone (R6, D14). -/
def timerIncrement (hz : Nat) : BitVec tw := increment tw (rawTimerIncrement hz)

/-- The rates that SETRATE accepts (R5). -/
abbrev RateOk (hz : Nat) : Prop := rateMin ≤ hz ∧ hz ≤ rateMax

/-- FREE VALUE, opaque, without a body: what the platform answers to a `ReadLine(pin)` for which `State.levels` holds no
answer, by the number of the draw (R33, U7, U8). Log entry 2. -/
opaque freeLevel : Nat → PinId → Level

/-- FREE VALUE, opaque, without a body: the first deadline `d0` that the platform chooses when `State.deadlines` holds no
answer, by the number of the draw (R107, U6). Log entry 3. -/
opaque freeDeadline : Nat → BitVec tw

/-- FREE VALUE, opaque, without a body: what `cfg_pin` carries at an instant at which `cfg_valid` is 0, by the number of the
instant; R61 gives none. Log entry 22. -/
opaque idleCfgPin : Nat → PinId

/-- FREE VALUE, opaque, without a body: what `start_interval` carries at an instant at which `start_valid` is 0, by the number of
the instant; R61 gives none. Log entry 22. -/
opaque idleStartInterval : Nat → BitVec tw

/-- FREE VALUE, opaque, without a body: what `rsp` carries at an instant at which `rsp_valid` is 0, by the number of the instant;
R61 gives none. Log entry 22. -/
opaque idleRsp : Nat → BitVec 35

end Sys2Proof.Config
end

