-- ==== Sys2Proof/Syntax.lean ====
section
/-! DEFINITION. The operations of QDEC, one constructor per row of spec/opcode_table.json: the TICK event, the six host
commands, the ten reserved opcodes and the sixteen entries of the transition table (R3, R49 to R59, R66 to R81).
A word that matches no row (an opcode 0x1 to 0x6 whose must-be-zero field is not zero) is no `Instr`: the decoder
rejects it by name and the step answers it as R124 says. -/

namespace Sys2Proof

/-- Slot indexes and rates are integers as in the textual form of R62; `Instr.wf` bounds them by their fields' widths. -/
inductive Instr where
  /-- TICK, the event of the periodic source (R59, R90). -/
  | tick
  /-- ATTACH pinI, pinQ (R50, R116, R117). -/
  | attach (pinI pinQ : PinId)
  /-- SETRATE hz (R51, R118, R119). -/
  | setrate (hz : Nat)
  /-- GETPOS s (R52, R120). -/
  | getpos (slot : Nat)
  /-- SETPOS s, v (R53, R121). -/
  | setpos (slot : Nat) (value : DataWord)
  /-- GETSTAT s (R54, R122). -/
  | getstat (slot : Nat)
  /-- CLRINV s (R54, R123). -/
  | clrinv (slot : Nat)
  /-- The reserved opcodes 0x0 and 0x7 to 0xF with the ignored bits 35..0 (R57, R124). -/
  | reserved0 (rest : BitVec 36)
  | reserved7 (rest : BitVec 36)
  | reserved8 (rest : BitVec 36)
  | reserved9 (rest : BitVec 36)
  | reservedA (rest : BitVec 36)
  | reservedB (rest : BitVec 36)
  | reservedC (rest : BitVec 36)
  | reservedD (rest : BitVec 36)
  | reservedE (rest : BitVec 36)
  | reservedF (rest : BitVec 36)
  /-- The entries TT[p][c] of the transition table, `tt<p><c>` (R66 to R81). -/
  | tt00
  | tt01
  | tt02
  | tt03
  | tt10
  | tt11
  | tt12
  | tt13
  | tt20
  | tt21
  | tt22
  | tt23
  | tt30
  | tt31
  | tt32
  | tt33
deriving DecidableEq, Repr

end Sys2Proof
end

