-- ==== Sys2Proof/WellFormed.lean ====
section
/-! DEFINITION. Well-formedness of an instruction: every integer operand fits the field that carries it
(R31, R49, R51, R62). Line identifiers, values and ignored bits fit by their types. -/

namespace Sys2Proof

/-- The slot field is 4 bits wide (R31, R49). -/
def slotFits (slot : Nat) : Bool := decide (slot < 16)

/-- The `hz` operand of SETRATE is a 32-bit unsigned integer (R51). -/
def rateFits (hz : Nat) : Bool := decide (hz < 4294967296)

/-- Every operand is a value its field can carry (R62). -/
def Instr.wf : Instr → Bool
  | .tick => true
  | .attach _ _ => true
  | .setrate hz => rateFits hz
  | .getpos slot => slotFits slot
  | .setpos slot _ => slotFits slot
  | .getstat slot => slotFits slot
  | .clrinv slot => slotFits slot
  | .reserved0 _ => true
  | .reserved7 _ => true
  | .reserved8 _ => true
  | .reserved9 _ => true
  | .reservedA _ => true
  | .reservedB _ => true
  | .reservedC _ => true
  | .reservedD _ => true
  | .reservedE _ => true
  | .reservedF _ => true
  | .tt00 => true
  | .tt01 => true
  | .tt02 => true
  | .tt03 => true
  | .tt10 => true
  | .tt11 => true
  | .tt12 => true
  | .tt13 => true
  | .tt20 => true
  | .tt21 => true
  | .tt22 => true
  | .tt23 => true
  | .tt30 => true
  | .tt31 => true
  | .tt32 => true
  | .tt33 => true

end Sys2Proof
end

