-- ==== Sys2Proof/Decode.lean ====
section
/-! DEFINITION. The decoder, total on every packet, rejecting by name (R45 to R59), and after it the encoder. -/

namespace Sys2Proof

/-- `op = cmd[39:36]` (R49). -/
def opOf (w : CmdWord) : BitVec 4 := w.extractLsb' 36 4

/-- `slot = cmd[35:32]` (R49). -/
def slotOf (w : CmdWord) : BitVec 4 := w.extractLsb' 32 4

/-- `arg = cmd[31:0]` (R49). -/
def argOf (w : CmdWord) : DataWord := w.extractLsb' 0 32

/-- Bits 35..0, which a reserved opcode ignores (R57). -/
def restOf (w : CmdWord) : BitVec 36 := w.extractLsb' 0 36

/-- `pinI = arg[31:16]` (R50). -/
def pinIOf (arg : DataWord) : PinId := arg.extractLsb' 16 16

/-- `pinQ = arg[15:0]` (R50). -/
def pinQOf (arg : DataWord) : PinId := arg.extractLsb' 0 16

/-- Why a packet is no instruction. -/
inductive Reject where
  /-- An EV packet whose strobe is 0 carries no TICK event (R59). -/
  | strobeLow
  /-- ATTACH or SETRATE with a non-zero `slot` field (R57). -/
  | slotNotZero
  /-- GETPOS, GETSTAT or CLRINV with a non-zero `arg` field (R57). -/
  | argNotZero
deriving DecidableEq, Repr

/-- A command whose `slot` field must be zero (R50, R51, R57). -/
def needZeroSlot (w : CmdWord) (i : Instr) : Except Reject Instr :=
  if slotOf w = 0#4 then .ok i else .error .slotNotZero

/-- A command whose `arg` field must be zero (R52, R54, R57). -/
def needZeroArg (w : CmdWord) (i : Instr) : Except Reject Instr :=
  if argOf w = 0#32 then .ok i else .error .argNotZero

/-- A command word: first `op`, then the must-be-zero field of that opcode (R58). -/
def decodeCommand (w : CmdWord) : Except Reject Instr :=
  match (opOf w).toNat with
  | 0 => .ok (.reserved0 (restOf w))
  | 1 => needZeroSlot w (.attach (pinIOf (argOf w)) (pinQOf (argOf w)))
  | 2 => needZeroSlot w (.setrate (argOf w).toNat)
  | 3 => needZeroArg w (.getpos (slotOf w).toNat)
  | 4 => .ok (.setpos (slotOf w).toNat (argOf w))
  | 5 => needZeroArg w (.getstat (slotOf w).toNat)
  | 6 => needZeroArg w (.clrinv (slotOf w).toNat)
  | 7 => .ok (.reserved7 (restOf w))
  | 8 => .ok (.reserved8 (restOf w))
  | 9 => .ok (.reserved9 (restOf w))
  | 10 => .ok (.reservedA (restOf w))
  | 11 => .ok (.reservedB (restOf w))
  | 12 => .ok (.reservedC (restOf w))
  | 13 => .ok (.reservedD (restOf w))
  | 14 => .ok (.reservedE (restOf w))
  | _ => .ok (.reservedF (restOf w))     -- 15, the only value left of a 4-bit field

/-- The table entry that the index (p, c) = 4 * p + c selects (R47). -/
def decodeEntry (idx : BitVec 4) : Instr :=
  match idx.toNat with
  | 0 => .tt00
  | 1 => .tt01
  | 2 => .tt02
  | 3 => .tt03
  | 4 => .tt10
  | 5 => .tt11
  | 6 => .tt12
  | 7 => .tt13
  | 8 => .tt20
  | 9 => .tt21
  | 10 => .tt22
  | 11 => .tt23
  | 12 => .tt30
  | 13 => .tt31
  | 14 => .tt32
  | _ => .tt33     -- 15, the only value left of a 4-bit index

/-- What a packet of any format is. -/
def decode : Packet → Except Reject Instr
  | .ev strobe => if strobe = 1#1 then .ok .tick else .error .strobeLow
  | .cmd w => decodeCommand w
  | .tt idx => .ok (decodeEntry idx)

/-! The encoder. -/

/-- A command word from its three fields (R49). -/
def cmdWord (op slot : BitVec 4) (arg : DataWord) : CmdWord := op ++ slot ++ arg

/-- A word of a reserved opcode (R57). -/
def reservedWord (op : BitVec 4) (rest : BitVec 36) : CmdWord := op ++ rest

/-- The packet of an instruction (R47 to R59). -/
def encode : Instr → Packet
  | .tick => .ev 1#1
  | .attach pinI pinQ => .cmd (cmdWord 1#4 0#4 (pinI ++ pinQ))
  | .setrate hz => .cmd (cmdWord 2#4 0#4 (BitVec.ofNat 32 hz))
  | .getpos slot => .cmd (cmdWord 3#4 (BitVec.ofNat 4 slot) 0#32)
  | .setpos slot value => .cmd (cmdWord 4#4 (BitVec.ofNat 4 slot) value)
  | .getstat slot => .cmd (cmdWord 5#4 (BitVec.ofNat 4 slot) 0#32)
  | .clrinv slot => .cmd (cmdWord 6#4 (BitVec.ofNat 4 slot) 0#32)
  | .reserved0 rest => .cmd (reservedWord 0#4 rest)
  | .reserved7 rest => .cmd (reservedWord 7#4 rest)
  | .reserved8 rest => .cmd (reservedWord 8#4 rest)
  | .reserved9 rest => .cmd (reservedWord 9#4 rest)
  | .reservedA rest => .cmd (reservedWord 10#4 rest)
  | .reservedB rest => .cmd (reservedWord 11#4 rest)
  | .reservedC rest => .cmd (reservedWord 12#4 rest)
  | .reservedD rest => .cmd (reservedWord 13#4 rest)
  | .reservedE rest => .cmd (reservedWord 14#4 rest)
  | .reservedF rest => .cmd (reservedWord 15#4 rest)
  | .tt00 => .tt 0#4
  | .tt01 => .tt 1#4
  | .tt02 => .tt 2#4
  | .tt03 => .tt 3#4
  | .tt10 => .tt 4#4
  | .tt11 => .tt 5#4
  | .tt12 => .tt 6#4
  | .tt13 => .tt 7#4
  | .tt20 => .tt 8#4
  | .tt21 => .tt 9#4
  | .tt22 => .tt 10#4
  | .tt23 => .tt 11#4
  | .tt30 => .tt 12#4
  | .tt31 => .tt 13#4
  | .tt32 => .tt 14#4
  | .tt33 => .tt 15#4

/-! The opcode table's own numbering of bits. -/

/-- The packet whose bits are `w`, for a row of `nbits` bits. A row of format TT has 4 bits and the TICK row 1 bit; counted
in whole bytes both have 8, and then the value 1 is the encoding of TICK and of TT[0][1] alike.
DESIGN CHOICE (log entry 12): of the two, 8 bits of value 1 are read as TICK. -/
def tablePacket (nbits w : Nat) : Option Packet :=
  match nbits with
  | 40 => if w < 2 ^ 40 then some (.cmd (BitVec.ofNat 40 w)) else none
  | 1 => if w < 2 then some (.ev (BitVec.ofNat 1 w)) else none
  | 4 => if w < 16 then some (.tt (BitVec.ofNat 4 w)) else none
  | 8 => if w = 1 then some (.ev 1#1) else if w < 16 then some (.tt (BitVec.ofNat 4 w)) else none
  | _ => none

/-- The instruction the decoder reads from a row's bits. -/
def decodeTableWord (nbits w : Nat) : Option Instr :=
  match tablePacket nbits w with
  | none => none
  | some p =>
    match decode p with
    | .ok i => some i
    | .error _ => none

end Sys2Proof
end

