-- ==== Sys2Proof/Machine/State.lean ====
section
/-! DEFINITION. The state of QDEC (spec/10_state.md), the inputs the platform and the host have waiting for it, the outputs
it has produced, its reset value, and the reasons a step can stop. -/

namespace Sys2Proof.Machine

/-- The sampler's control state (R16, R105). -/
inductive Fsm where
  | idle
  | running
deriving DecidableEq, Repr

/-- One registry slot with a counter of `w` bits (R10 to R14). -/
structure Slot (w : Nat) where
  /-- `slot[k].pinI` (R11). -/
  pinI : PinId
  /-- `slot[k].pinQ` (R11). -/
  pinQ : PinId
  /-- `slot[k].state`, the previous sample (R12). -/
  state : QState
  /-- `slot[k].cnt`, two's complement (R13). -/
  cnt : BitVec w
  /-- `slot[k].inv`, the sticky invalid-transition flag (R14). -/
  inv : Bool
deriving DecidableEq, Repr

/-- The status and cause codes of R56 and R141. -/
inductive Status where
  | ok
  | errCapacity
  | errRate
  | errSlot
  | errIllegal
  /-- A cause only, recorded by `inv`; never a response status (R56). -/
  | causeInvalidTransition
deriving DecidableEq, Repr

/-- The response of a host command (R55). -/
structure Response where
  status : Status
  data : DataWord
deriving DecidableEq, Repr

/-- A request to the platform, `Emit(e)` (R60). -/
inductive Event where
  | configureInput (pin : PinId)
  | startSource (interval : BitVec Config.tw)
deriving DecidableEq, Repr

/-- What the outside world presents to QDEC at one place of the total order of R38. -/
inductive Arrival where
  /-- One packet: the tick strobe, a command word, or a table index. -/
  | packet (p : Packet)
  /-- The tick strobe and a command word presented at the same instant (R150). -/
  | tickWithCommand (w : CmdWord)
  /-- A tick strobe, and another one while the first one's TICK is still in progress (R148). -/
  | overlappedTick
  /-- The reset input `rst` (R61, R165). -/
  | reset
deriving DecidableEq, Repr

/-- The whole machine. The first five fields are the spec's registers; `occ` is the length of `slots` (R26, D27). The others
are the model's own: what stands outside QDEC and is presented to it, and what it has put out (log entries 2, 3, 6, 10). -/
structure State where
  /-- The attached slots 0 .. occ - 1, in slot order (R10, R26). -/
  slots : List (Slot Config.cw)
  /-- `fsm` (R16). -/
  fsm : Fsm
  /-- `rate_hz` (R17). -/
  rateHz : Nat
  /-- `incr` (R18). -/
  incr : BitVec Config.tw
  /-- `deadline` (R19). -/
  deadline : BitVec Config.tw
  /-- Input: what is presented to the block, the next first (R2, R38). -/
  arrivals : List Arrival
  /-- Input: the platform's answers to the coming `ReadLine` calls, the next first (R33). -/
  levels : List Level
  /-- Input: the platform's choices of the coming first deadlines, the next first (R107). -/
  deadlines : List (BitVec Config.tw)
  /-- How many answers have been taken from the platform; the argument of the free values. -/
  draws : Nat
  /-- Output: the trace of `Emit`, oldest first (R60). -/
  trace : List Event
  /-- Output: the responses, oldest first (R55). -/
  responses : List Response
  /-- Output: the identifiers presented to `readDigitalInput` (port `rd_pin`), oldest first (R59, R61). -/
  rdPins : List PinId
  /-- Output: the values of table lookups presented as operations of their own, oldest first (R65). -/
  lookups : List Int
deriving DecidableEq, Repr

/-- The state after reset (R25, R165): no slot attached, Idle, the default rate and its increment.
DESIGN CHOICE (log entry 4): the spec leaves `deadline` unspecified until the source is started; here it is 0.
DESIGN CHOICE (log entries 6 and 10): nothing is presented yet and nothing has been put out. -/
def State.reset : State where
  slots := []
  fsm := .idle
  rateHz := Config.defaultRateHz
  incr := Config.timerIncrement Config.defaultRateHz
  deadline := 0#Config.tw
  arrivals := []
  levels := []
  deadlines := []
  draws := 0
  trace := []
  responses := []
  rdPins := []
  lookups := []

/-- Why the machine stops. -/
inductive Fault where
  /-- Raised by the step on an `overlappedTick` while Running: a tick strobe during a TICK breaks the platform's guarantee,
  and R148 asks that it be treated as a fault. Safe: nothing can be proved of what the hardware does then. -/
  | tickDuringTick
deriving DecidableEq, Repr

/-- Why the model gives no meaning. -/
inductive Refusal where
  /-- Raised by `exec` for an instruction without a meaning; no arm uses it. Safe: it only stops. -/
  | notModelled (mnemonic : String)
deriving DecidableEq, Repr

end Sys2Proof.Machine
end

