-- ==== Sys2Proof/Machine/Flags.lean ====
section
/-! DEFINITION. The one flag of QDEC, `inv`, and the numeric codes of statuses, causes and the control state. -/

namespace Sys2Proof.Machine

/-- The pair (p, c) is diagonal: both lines differ (R82, R96). The class of the pair decides, not the delta's value. -/
def isDiagonal (p c : QState) : Bool := decide (p ^^^ c = 3#2)

/-- `inv` after a TICK: set by a diagonal pair, else kept (R96). -/
def invAfter (inv : Bool) (p c : QState) : Bool := inv || isDiagonal p c

/-- The 3-bit code of a status or cause (R56, R141). -/
def Status.code : Status → BitVec 3
  | .ok => 0#3
  | .errCapacity => 1#3
  | .errRate => 2#3
  | .errSlot => 3#3
  | .errIllegal => 4#3
  | .causeInvalidTransition => 5#3

/-- The 35-bit response word `rsp[34:0]`: status in bits 34..32, data in bits 31..0 (R55). -/
def Response.word (r : Response) : BitVec 35 := r.status.code ++ r.data

/-- The cause a slot's `inv` flag records: InvalidTransition or none; which tick and which pair are not kept (R56, R141). -/
def recordedCause {w : Nat} (sl : Slot w) : Option Status :=
  if sl.inv then some .causeInvalidTransition else none

/-- The encoding of the control state (R16). -/
def Fsm.code : Fsm → BitVec 1
  | .idle => 0#1
  | .running => 1#1

end Sys2Proof.Machine
end

