-- ==== Sys2Proof/Machine/Transition.lean ====
section
/-! DEFINITION. The transition table and its lookup (spec/40_transition_table.md). The sentinel is an argument of the table,
so that the table can be read at any admissible value of INVALID_DELTA; `TT` is the table of the machine. -/

namespace Sys2Proof.Machine

/-- The 4-bit table index (p, c), `4 * p + c` (R47). -/
def ttIndex (p c : QState) : BitVec 4 := p ++ c

/-- The sixteen entries in index order, with the sentinel `inv` (R20, R66 to R81). -/
def ttEntries (inv : Int) : List Int :=
  [ 0,      -- R66 TT[0][0]
    1,      -- R67 TT[0][1]
    -1,     -- R68 TT[0][2]
    inv,    -- R69 TT[0][3]
    -1,     -- R70 TT[1][0]
    0,      -- R71 TT[1][1]
    inv,    -- R72 TT[1][2]
    1,      -- R73 TT[1][3]
    1,      -- R74 TT[2][0]
    inv,    -- R75 TT[2][1]
    0,      -- R76 TT[2][2]
    -1,     -- R77 TT[2][3]
    inv,    -- R78 TT[3][0]
    -1,     -- R79 TT[3][1]
    1,      -- R80 TT[3][2]
    0 ]     -- R81 TT[3][3]

/-- The lookup, total because the index has 4 bits and the table 16 entries (R65). -/
def ttLookup (inv : Int) (p c : QState) : Int := (ttEntries inv).getD (ttIndex p c).toNat 0

/-- `TT[p][c]` (R65). -/
def TT (p c : QState) : Int := ttLookup Config.invalidDelta p c

end Sys2Proof.Machine
end

