-- ==== Sys2Proof/Machine/Operands.lean ====
section
/-! DEFINITION. Operand forms: bits of levels, the packed sample, the slot operand, and the conversions between a counter and
the 32-bit data word (spec/00_scope.md section 6, R45, R46, R48, R53). -/

namespace Sys2Proof.Machine

/-- The bit of a level: high = 1, low = 0 (R46). -/
def levelBit : Level → BitVec 1
  | .low => 0#1
  | .high => 1#1

/-- The packed sample: bit 1 = I line, bit 0 = Q line (R45). -/
def pack (i q : Level) : QState := levelBit i ++ levelBit q

/-- `enc(z) = z mod 2^w`, the bit pattern of an integer (R48). -/
def encInt (w : Nat) (z : Int) : BitVec w := BitVec.ofInt w z

/-- The counter as a data word, sign-extended (R120). -/
def cntData {w : Nat} (cnt : BitVec w) : DataWord := cnt.signExtend 32

/-- The low bits of a data word, as a counter takes them (R53, R121). -/
def dataCnt (w : Nat) (v : DataWord) : BitVec w := v.setWidth w

/-- An integer below 2^32 as a data word, zero-extended (R116, R118). -/
def natData (n : Nat) : DataWord := BitVec.ofNat 32 n

/-- The data word of GETSTAT: bit 2 = inv, bits 1..0 = state, all others 0 (R122). -/
def statData {w : Nat} (sl : Slot w) : DataWord := 0#29 ++ BitVec.ofBool sl.inv ++ sl.state

/-- `occ`, the number of attached encoders (R15). -/
def State.occ (s : State) : Nat := s.slots.length

/-- The number of free slots, `MAX_ENCODERS - occ` (R10). -/
def State.freeSlots (s : State) : Nat := Config.maxEncoders - s.occ

/-- The slot a slot operand names, if it is attached (R31, R36). -/
def State.slot (s : State) (k : Nat) : Option (Slot Config.cw) := s.slots[k]?

end Sys2Proof.Machine
end

