-- ==== Sys2Proof/Machine/Ops.lean ====
section
/-! DEFINITION. The named operations the meanings share: responding, refusing, emitting, reading a line, changing a slot,
starting the source, sampling a slot, scanning the registry, reset.

QDEC takes no trap (R140, R152): it has no saved registers, no mode and no handler address. What stands in the place of an
exception's entry is `refuse`, the one way every host operation reports an error (R115); the tick handler's entry and return
save and restore nothing (R152, R153) and are inside `tick`. -/

namespace Sys2Proof.Machine

/-- `respond(status, data)`, appended to the responses (R55). -/
def respond (st : Status) (d : DataWord) (s : State) : State :=
  { s with responses := s.responses ++ [⟨st, d⟩] }

/-- A refused host operation: a status other than OK, data 0, no register changed, no event (R115, R140). -/
def refuse (st : Status) (s : State) : State := respond st 0#32 s

/-- An illegal command word (R124). -/
def illegalCommand (s : State) : State := refuse .errIllegal s

/-- `Emit(e)` (R60). -/
def emit (e : Event) (s : State) : State := { s with trace := s.trace ++ [e] }

/-- Replaces slot `k` by what `f` makes of it, if it is attached. -/
def modifySlot (k : Nat) (f : Slot Config.cw → Slot Config.cw) (s : State) : State :=
  { s with slots := s.slots.modify k f }

/-- A slot-addressed host operation: refused with ERR_SLOT unless the slot is attached (R36, R127). -/
def onSlot (k : Nat) (f : Slot Config.cw → State → State) (s : State) : State :=
  match s.slot k with
  | some sl => f sl s
  | none => refuse .errSlot s

/-- The platform's answer to the `ReadLine(pin)` that is the next draw but `j`: the answer waiting for it, else a free value
(R33; log entry 2). -/
def State.answer (s : State) (j : Nat) (pin : PinId) : Level :=
  s.levels.getD j (Config.freeLevel (s.draws + j) pin)

/-- `ReadLine(pin)`: the answer, which changes no register of QDEC (R33, R42), and the state in which it has been taken. -/
def readLine (pin : PinId) (s : State) : Level × State :=
  (s.answer 0 pin,
    { s with levels := s.levels.tail, draws := s.draws + 1, rdPins := s.rdPins ++ [pin] })

/-- The platform's choice of the first deadline: the one waiting, else a free value (R107; log entry 3). -/
def State.firstDeadline (s : State) : BitVec Config.tw :=
  s.deadlines.headD (Config.freeDeadline s.draws)

/-- `deadline <- d0` (R107). -/
def loadDeadline (s : State) : State :=
  { s with deadline := s.firstDeadline, deadlines := s.deadlines.tail, draws := s.draws + 1 }

/-- The Idle to Running transition, taken by a successful ATTACH in Idle only (R106, R107). -/
def startIfIdle (s : State) : State :=
  match s.fsm with
  | .running => s
  | .idle => loadDeadline (emit (.startSource s.incr) { s with fsm := .running })

/-- A slot as ATTACH fills it (R116). -/
def freshSlot (w : Nat) (pinI pinQ : PinId) : Slot w :=
  { pinI := pinI, pinQ := pinQ, state := 0#2, cnt := 0#w, inv := false }

/-- Fills the next free slot and so increments `occ` (R116). -/
def addSlot (pinI pinQ : PinId) (s : State) : State :=
  { s with slots := s.slots ++ [freshSlot Config.cw pinI pinQ] }

/-- Steps 2b to 2d of TICK on one slot with sentinel `inv` and current sample `c` (R94 to R97). -/
def sampleSlot {w : Nat} (inv : Int) (c : QState) (sl : Slot w) : Slot w :=
  { sl with
    cnt := sl.cnt + encInt w (ttLookup inv sl.state c)
    inv := invAfter sl.inv sl.state c
    state := c }

/-- Step 2 of TICK for slot `k`: read I, read Q, look up, add, store (R92 to R97). -/
def tickSlot (k : Nat) (s : State) : State :=
  match s.slot k with
  | none => s
  | some sl =>
    let rI := readLine sl.pinI s
    let rQ := readLine sl.pinQ rI.2
    modifySlot k (sampleSlot Config.invalidDelta (pack rI.1 rQ.1)) rQ.2

/-- The ascending scan of `n` slots from slot `k` (R92). -/
def scan : (n k : Nat) → State → State
  | 0, _, s => s
  | n + 1, k, s => scan n (k + 1) (tickSlot k s)

/-- Step 1 of TICK: `deadline <- (deadline + incr) mod 2^TW` (R91). -/
def advanceDeadline (s : State) : State := { s with deadline := s.deadline + s.incr }

/-- The TICK operation in Running (R90): the deadline first, then every attached slot; `occ` is read once. -/
def tick (s : State) : State := scan s.occ 0 (advanceDeadline s)

/-- A table lookup presented as an operation of its own: its value, and no register changed (R65).
DESIGN CHOICE (log entry 11): the value is appended to the model's own output `lookups`. -/
def lookupEntry (p c : QState) (s : State) : State := { s with lookups := s.lookups ++ [TT p c] }

/-- Reset (R25, R165): every register takes its reset value. DESIGN CHOICE (log entry 13): what stands outside the block, the
inputs still waiting and the outputs already given, is not undone. -/
def applyReset (s : State) : State :=
  { s with
    slots := State.reset.slots
    fsm := State.reset.fsm
    rateHz := State.reset.rateHz
    incr := State.reset.incr
    deadline := State.reset.deadline }

/-- A packet that is no instruction: a low strobe is no event (R59), an illegal word is answered (R57, R124). -/
def rejectPacket (r : Reject) (s : State) : State :=
  match r with
  | .strobeLow => s
  | .slotNotZero => illegalCommand s
  | .argNotZero => illegalCommand s

/-- A tick strobe while the TICK of the strobe before it is in progress: a fault (R148). In Idle no TICK is in progress and
both strobes are ignored (R108). -/
def overlapTick (s : State) : Host.Outcome State Fault Refusal :=
  match s.fsm with
  | .running => .fault .tickDuringTick
  | .idle => .next s

end Sys2Proof.Machine
end

