-- ==== Sys2Proof/Machine/Entries.lean ====
section
/-! DEFINITION. The meanings of the sixteen table entries presented as operations of their own: the lookup returns its value,
writes no register, sets no flag and raises nothing (R65; spec/40_transition_table.md, template of the entry rules). -/

namespace Sys2Proof.Machine

/-- TT[0][0] (R66). -/
def execTt00 (s : State) : Host.Outcome State Fault Refusal := .next (lookupEntry 0#2 0#2 s)

/-- TT[0][1] (R67). -/
def execTt01 (s : State) : Host.Outcome State Fault Refusal := .next (lookupEntry 0#2 1#2 s)

/-- TT[0][2] (R68). -/
def execTt02 (s : State) : Host.Outcome State Fault Refusal := .next (lookupEntry 0#2 2#2 s)

/-- TT[0][3] (R69). -/
def execTt03 (s : State) : Host.Outcome State Fault Refusal := .next (lookupEntry 0#2 3#2 s)

/-- TT[1][0] (R70). -/
def execTt10 (s : State) : Host.Outcome State Fault Refusal := .next (lookupEntry 1#2 0#2 s)

/-- TT[1][1] (R71). -/
def execTt11 (s : State) : Host.Outcome State Fault Refusal := .next (lookupEntry 1#2 1#2 s)

/-- TT[1][2] (R72). -/
def execTt12 (s : State) : Host.Outcome State Fault Refusal := .next (lookupEntry 1#2 2#2 s)

/-- TT[1][3] (R73). -/
def execTt13 (s : State) : Host.Outcome State Fault Refusal := .next (lookupEntry 1#2 3#2 s)

/-- TT[2][0] (R74). -/
def execTt20 (s : State) : Host.Outcome State Fault Refusal := .next (lookupEntry 2#2 0#2 s)

/-- TT[2][1] (R75). -/
def execTt21 (s : State) : Host.Outcome State Fault Refusal := .next (lookupEntry 2#2 1#2 s)

/-- TT[2][2] (R76). -/
def execTt22 (s : State) : Host.Outcome State Fault Refusal := .next (lookupEntry 2#2 2#2 s)

/-- TT[2][3] (R77). -/
def execTt23 (s : State) : Host.Outcome State Fault Refusal := .next (lookupEntry 2#2 3#2 s)

/-- TT[3][0] (R78). -/
def execTt30 (s : State) : Host.Outcome State Fault Refusal := .next (lookupEntry 3#2 0#2 s)

/-- TT[3][1] (R79). -/
def execTt31 (s : State) : Host.Outcome State Fault Refusal := .next (lookupEntry 3#2 1#2 s)

/-- TT[3][2] (R80). -/
def execTt32 (s : State) : Host.Outcome State Fault Refusal := .next (lookupEntry 3#2 2#2 s)

/-- TT[3][3] (R81). -/
def execTt33 (s : State) : Host.Outcome State Fault Refusal := .next (lookupEntry 3#2 3#2 s)

end Sys2Proof.Machine
end

