-- ==== Sys2Proof/Machine/HostOps.lean ====
section
/-! DEFINITION. The meanings of the six host commands (spec/43_host_operations.md). -/

namespace Sys2Proof.Machine

/-- ATTACH: full registry R117; else configure, fill, start if first, respond with the slot index (R116). -/
def execAttach (pinI pinQ : PinId) (s : State) : Host.Outcome State Fault Refusal :=
  if s.freeSlots = 0 then
    .next (refuse .errCapacity s)
  else
    .next (respond .ok (natData s.occ)
      (startIfIdle (addSlot pinI pinQ (emit (.configureInput pinQ) (emit (.configureInput pinI) s)))))

/-- SETRATE: accepted R118, rejected R119. -/
def execSetrate (hz : Nat) (s : State) : Host.Outcome State Fault Refusal :=
  if Config.RateOk hz then
    .next (respond .ok (natData hz) { s with rateHz := hz, incr := Config.timerIncrement hz })
  else
    .next (refuse .errRate s)

/-- GETPOS (R120, R127). -/
def execGetpos (slot : Nat) (s : State) : Host.Outcome State Fault Refusal :=
  .next (onSlot slot (fun sl t => respond .ok (cntData sl.cnt) t) s)

/-- SETPOS (R121, R127). -/
def execSetpos (slot : Nat) (value : DataWord) (s : State) : Host.Outcome State Fault Refusal :=
  .next (onSlot slot
    (fun _ t => respond .ok 0#32 (modifySlot slot (fun x => { x with cnt := dataCnt Config.cw value }) t)) s)

/-- GETSTAT (R122, R127). -/
def execGetstat (slot : Nat) (s : State) : Host.Outcome State Fault Refusal :=
  .next (onSlot slot (fun sl t => respond .ok (statData sl) t) s)

/-- CLRINV (R123, R127). -/
def execClrinv (slot : Nat) (s : State) : Host.Outcome State Fault Refusal :=
  .next (onSlot slot (fun _ t => respond .ok 0#32 (modifySlot slot (fun x => { x with inv := false }) t)) s)

end Sys2Proof.Machine
end

