-- ==== Sys2Proof/Machine/Reserved.lean ====
section
/-! DEFINITION. The meanings of the ten reserved opcodes: `respond(ERR_ILLEGAL, 0)`, no state change, no event; the bits
35..0 are ignored (R57, R124). -/

namespace Sys2Proof.Machine

/-- The reserved opcode 0x0 (R124). -/
def execReserved0 (_rest : BitVec 36) (s : State) : Host.Outcome State Fault Refusal := .next (illegalCommand s)

/-- The reserved opcode 0x7 (R124). -/
def execReserved7 (_rest : BitVec 36) (s : State) : Host.Outcome State Fault Refusal := .next (illegalCommand s)

/-- The reserved opcode 0x8 (R124). -/
def execReserved8 (_rest : BitVec 36) (s : State) : Host.Outcome State Fault Refusal := .next (illegalCommand s)

/-- The reserved opcode 0x9 (R124). -/
def execReserved9 (_rest : BitVec 36) (s : State) : Host.Outcome State Fault Refusal := .next (illegalCommand s)

/-- The reserved opcode 0xA (R124). -/
def execReservedA (_rest : BitVec 36) (s : State) : Host.Outcome State Fault Refusal := .next (illegalCommand s)

/-- The reserved opcode 0xB (R124). -/
def execReservedB (_rest : BitVec 36) (s : State) : Host.Outcome State Fault Refusal := .next (illegalCommand s)

/-- The reserved opcode 0xC (R124). -/
def execReservedC (_rest : BitVec 36) (s : State) : Host.Outcome State Fault Refusal := .next (illegalCommand s)

/-- The reserved opcode 0xD (R124). -/
def execReservedD (_rest : BitVec 36) (s : State) : Host.Outcome State Fault Refusal := .next (illegalCommand s)

/-- The reserved opcode 0xE (R124). -/
def execReservedE (_rest : BitVec 36) (s : State) : Host.Outcome State Fault Refusal := .next (illegalCommand s)

/-- The reserved opcode 0xF (R124). -/
def execReservedF (_rest : BitVec 36) (s : State) : Host.Outcome State Fault Refusal := .next (illegalCommand s)

end Sys2Proof.Machine
end

