-- ==== Sys2Proof/Machine/Sampler.lean ====
section
/-! DEFINITION. The meaning of TICK (spec/41_sampler_tick.md, spec/42_sampler_control_fsm.md). -/

namespace Sys2Proof.Machine

/-- TICK: enabled only in Running (R90); in Idle the strobe is ignored and not remembered (R108, D11; log entry 8). -/
def execTick (s : State) : Host.Outcome State Fault Refusal :=
  match s.fsm with
  | .running => .next (tick s)
  | .idle => .next s

end Sys2Proof.Machine
end

