-- ==== Sys2Proof/Machine/Dispatch.lean ====
section
/-! DEFINITION. What each instruction does, one arm per constructor of Instr. -/

namespace Sys2Proof.Machine

def exec (i : Instr) (s : State) : Host.Outcome State Fault Refusal :=
  match i with
  | .tick => Sys2Proof.Machine.execTick s
  | .attach pinI pinQ => Sys2Proof.Machine.execAttach pinI pinQ s
  | .setrate hz => Sys2Proof.Machine.execSetrate hz s
  | .getpos slot => Sys2Proof.Machine.execGetpos slot s
  | .setpos slot value => Sys2Proof.Machine.execSetpos slot value s
  | .getstat slot => Sys2Proof.Machine.execGetstat slot s
  | .clrinv slot => Sys2Proof.Machine.execClrinv slot s
  | .reserved0 rest => Sys2Proof.Machine.execReserved0 rest s
  | .reserved7 rest => Sys2Proof.Machine.execReserved7 rest s
  | .reserved8 rest => Sys2Proof.Machine.execReserved8 rest s
  | .reserved9 rest => Sys2Proof.Machine.execReserved9 rest s
  | .reservedA rest => Sys2Proof.Machine.execReservedA rest s
  | .reservedB rest => Sys2Proof.Machine.execReservedB rest s
  | .reservedC rest => Sys2Proof.Machine.execReservedC rest s
  | .reservedD rest => Sys2Proof.Machine.execReservedD rest s
  | .reservedE rest => Sys2Proof.Machine.execReservedE rest s
  | .reservedF rest => Sys2Proof.Machine.execReservedF rest s
  | .tt00 => Sys2Proof.Machine.execTt00 s
  | .tt01 => Sys2Proof.Machine.execTt01 s
  | .tt02 => Sys2Proof.Machine.execTt02 s
  | .tt03 => Sys2Proof.Machine.execTt03 s
  | .tt10 => Sys2Proof.Machine.execTt10 s
  | .tt11 => Sys2Proof.Machine.execTt11 s
  | .tt12 => Sys2Proof.Machine.execTt12 s
  | .tt13 => Sys2Proof.Machine.execTt13 s
  | .tt20 => Sys2Proof.Machine.execTt20 s
  | .tt21 => Sys2Proof.Machine.execTt21 s
  | .tt22 => Sys2Proof.Machine.execTt22 s
  | .tt23 => Sys2Proof.Machine.execTt23 s
  | .tt30 => Sys2Proof.Machine.execTt30 s
  | .tt31 => Sys2Proof.Machine.execTt31 s
  | .tt32 => Sys2Proof.Machine.execTt32 s
  | .tt33 => Sys2Proof.Machine.execTt33 s

end Sys2Proof.Machine
end

