-- ==== Sys2Proof/Machine/Step.lean ====
section
/-! DEFINITION. One step: the next thing presented to the block, taken whole (R38). -/

namespace Sys2Proof.Machine

/-- A packet taken from the arrivals: decoded and run, or answered as its rejection says (R58). -/
def runPacket (p : Packet) (s : State) : Host.Outcome State Fault Refusal :=
  match decode p with
  | .ok i => exec i s
  | .error r => .next (rejectPacket r s)

/-- One step. With nothing presented the block waits, its state unchanged (R112; log entry 6). A tick and a command presented
at the same instant: the TICK first, the command in the step after it (R150). -/
def step (s : State) : Host.Outcome State Fault Refusal :=
  match s.arrivals with
  | [] => .next s
  | .packet p :: rest => runPacket p { s with arrivals := rest }
  | .tickWithCommand w :: rest => exec .tick { s with arrivals := .packet (.cmd w) :: rest }
  | .overlappedTick :: rest => overlapTick { s with arrivals := rest }
  | .reset :: rest => .next (applyReset { s with arrivals := rest })

/-- The state with a row's bits presented as the next thing the block takes (log entries 6 and 12); unchanged where `nbits` and
`w` are no packet. -/
def State.withFetchWord (s : State) (nbits w : Nat) : State :=
  match tablePacket nbits w with
  | some p => { s with arrivals := .packet p :: s.arrivals }
  | none => s

end Sys2Proof.Machine
end

