-- ==== Sys2Proof/Machine/Ports.lean ====
section
/-! DEFINITION. The port-level binding of R61: the handshake of the command port, which arrival the input ports of one instant
present, and what the output ports show of the model's registers and outputs. The binding carries no timing, and no meaning
depends on it (R61, R175). -/

namespace Sys2Proof.Machine

/-! The command port's handshake. -/

/-- The arrival is a tick strobe, alone, with a command, or with another strobe. -/
def Arrival.strobesTick : Arrival → Bool
  | .packet (.ev e) => decide (e = 1#1)
  | .packet (.cmd _) => false
  | .packet (.tt _) => false
  | .tickWithCommand _ => true
  | .overlappedTick => true
  | .reset => false

/-- A TICK is in progress: what the block is to do next is a strobed TICK, and it is Running; in Idle a strobe starts none (R108).
DEDUCED (log entry 21): the TICK lasts from its strobe's turn to the end of the step that takes it. -/
def tickInProgress (s : State) : Bool :=
  match s.fsm with
  | .idle => false
  | .running => (s.arrivals.head?.map Arrival.strobesTick).getD false

/-- `cmd_ready`: 0 while a TICK is in progress (R61).
DESIGN CHOICE (log entry 21): 0 at an instant of reset too, and 1 at every other time, where R61 gives no value. -/
def cmdReady (rst : Bool) (s : State) : Bool := !rst && !tickInProgress s

/-- A command is taken when both `cmd_valid` and `cmd_ready` are 1 (R61). -/
def commandTaken (rst cmdValid : Bool) (s : State) : Bool := cmdValid && cmdReady rst s

/-! The input ports. -/

/-- What the inputs of one instant present: a reset, a tick, a command, or a tick and a command together (R61, R150, R165); `taken`
says that the command port's handshake takes `cmd`. DESIGN CHOICE (log entry 13): a synchronous reset leaves no tick or command of
the same instant. -/
def arrivalOf (rst tick taken : Bool) (cmd : CmdWord) : Option Arrival :=
  match rst, tick, taken with
  | true, _, _ => some .reset
  | false, true, true => some (.tickWithCommand cmd)
  | false, true, false => some (.packet (.ev 1#1))
  | false, false, true => some (.packet (.cmd cmd))
  | false, false, false => none

/-- The TICK in progress has been strobed again (R148). -/
def strobeAgain (s : State) : State := { s with arrivals := .overlappedTick :: s.arrivals.tail }

/-- Presents one instant of the ports `rst`, `tick`, `cmd_valid` and `cmd`, after everything already waiting. A tick strobe while a
TICK is in progress makes that TICK an overlapped one, which the step answers with a fault (R148). A command that is not taken leaves
nothing behind: the host holds it until `cmd_ready` is 1 (R61). -/
def presentPorts (rst tick cmdValid : Bool) (cmd : CmdWord) (s : State) : State :=
  if !rst && tick && tickInProgress s then strobeAgain s
  else { s with arrivals := s.arrivals ++ (arrivalOf rst tick (commandTaken rst cmdValid s) cmd).toList }

/-- `rd_level`, 1 = high, as an answer of the platform (R46, R61).
DESIGN CHOICE (log entry 23): each presented level is queued and serves one read, the oldest the next read; R61 does not say what a
level presented with no read pending is. -/
def presentLevel (rdLevel : BitVec 1) (s : State) : State :=
  { s with levels := s.levels ++ [if rdLevel = 1#1 then .high else .low] }

/-- `deadline_load` with `deadline_init`: where it is 1, a choice of the first deadline by the platform (R61, R107).
DESIGN CHOICE (log entry 23): each loaded value is queued, whether or not a start is pending, and the next start takes the oldest;
the register `deadline` does not change before. R61 and R107 do not say what a load with no start pending does. -/
def presentDeadline (deadlineLoad : Bool) (deadlineInit : BitVec Config.tw) (s : State) : State :=
  match deadlineLoad with
  | true => { s with deadlines := s.deadlines ++ [deadlineInit] }
  | false => s

/-! The output ports. -/

/-- The request ports, one valid pulse for each event (R60, R61). -/
structure RequestPorts where
  cfgValid : Bool
  cfgPin : PinId
  startValid : Bool
  startInterval : BitVec Config.tw
deriving DecidableEq, Repr

/-- The request ports at instant `n`, at which an event is emitted or none.
DESIGN CHOICE (log entry 22): the event has the instant to itself, so the other port's valid is 0; an operand whose valid is 0 is a
free value, since R61 gives none. -/
def requestPorts (n : Nat) : Option Event → RequestPorts
  | some (.configureInput pin) => ⟨true, pin, false, Config.idleStartInterval n⟩
  | some (.startSource interval) => ⟨false, Config.idleCfgPin n, true, interval⟩
  | none => ⟨false, Config.idleCfgPin n, false, Config.idleStartInterval n⟩

/-- The response port: `rsp_valid` and `rsp` (R61). -/
structure ResponsePorts where
  rspValid : Bool
  rsp : BitVec 35
deriving DecidableEq, Repr

/-- The response port at instant `n`, at which a response is given or none.
DESIGN CHOICE (log entry 22): `rsp` while `rsp_valid` is 0 is a free value, since R61 gives none. -/
def responsePorts (n : Nat) : Option Response → ResponsePorts
  | some r => ⟨true, r.word⟩
  | none => ⟨false, Config.idleRsp n⟩

/-- The pulses on the request ports, one for each event, in emission order (R60, R61).
DESIGN CHOICE (log entry 22): each event has an instant of its own, numbered by its place in the trace. -/
def requestPulses (s : State) : List RequestPorts := s.trace.mapIdx fun n e => requestPorts n (some e)

/-- The pulses on the response port, one for each command, in command order (R55, R61).
DESIGN CHOICE (log entry 22): each response has an instant of its own, numbered by its place among the responses. -/
def responsePulses (s : State) : List ResponsePorts := s.responses.mapIdx fun n r => responsePorts n (some r)

/-- `incr_o` (R61). -/
def incrPort (s : State) : BitVec Config.tw := s.incr

/-- `deadline_o` (R61). -/
def deadlinePort (s : State) : BitVec Config.tw := s.deadline

/-- `rd_pin`, the identifiers presented to `readDigitalInput`, in order (R59, R61). -/
def rdPinPort (s : State) : List PinId := s.rdPins

end Sys2Proof.Machine
end

