-- ==== Sys2Proof/Safety.lean ====
section
/-! DEFINITION. The terms in which statements speak of QDEC: its invariants (R23), its table's classes (R82, R84), the samples
and increments that a sequence of operations meets (R100, R107), and equality of states but for one part. -/

namespace Sys2Proof.Machine

/-- A response is of a kind R55 and R56 allow: never the cause code 5, and data 0 unless the status is OK. -/
def Response.Admissible (r : Response) : Prop :=
  r.status ≠ .causeInvalidTransition ∧ (r.status ≠ .ok → r.data = 0#32)

/-- The invariants I1 to I4 of R23, and what R55 and R56 say of every response. -/
structure State.Inv (s : State) : Prop where
  /-- I1. -/
  occ_le : s.occ ≤ Config.maxEncoders
  /-- I2. -/
  running_iff : s.fsm = .running ↔ 1 ≤ s.occ
  /-- I3. -/
  rate_ok : 250 ≤ s.rateHz ∧ s.rateHz ≤ 20000
  /-- I4, first part; that the increment is at least 1 follows. -/
  incr_eq : s.incr = Config.timerIncrement s.rateHz
  /-- R55, R56. -/
  responses_ok : ∀ r ∈ s.responses, r.Admissible

/-- The identifiers a trace has configured as inputs, in order (R60). -/
def configuredLines : List Event → List PinId
  | [] => []
  | .configureInput pin :: rest => pin :: configuredLines rest
  | .startSource _ :: rest => configuredLines rest

/-- How often a trace has started the periodic source (R60). -/
def sourceStarts : List Event → Nat
  | [] => 0
  | .configureInput _ :: rest => sourceStarts rest
  | .startSource _ :: rest => sourceStarts rest + 1

/-- The identifiers of the attached slots in slot order, I before Q (R10, R93). -/
def slotLines (slots : List (Slot Config.cw)) : List PinId :=
  slots.flatMap fun sl => [sl.pinI, sl.pinQ]

/-- Every attached slot's two lines have been configured, in slot order, and nothing after them (R116, I5 of R23). -/
def State.LinesConfigured (s : State) : Prop := slotLines s.slots <:+ configuredLines s.trace

/-- The successor in the forward sequence 0, 1, 3, 2, 0 (R84). -/
def nextForward (p : QState) : QState :=
  match p.toNat with
  | 0 => 1#2
  | 1 => 3#2
  | 3 => 2#2
  | _ => 0#2

/-- The sample a TICK in state `s` reads for slot `k`: the draws 2k and 2k + 1 of that TICK (R59, R93). -/
def State.sample (s : State) (k : Nat) (sl : Slot Config.cw) : QState :=
  pack (s.answer (2 * k) sl.pinI) (s.answer (2 * k + 1) sl.pinQ)

/-- A sequence of instructions, each run on the state its predecessor left (R38). -/
def execAll : List Instr → State → Host.Outcome State Fault Refusal
  | [], s => .next s
  | i :: is, s =>
    match exec i s with
    | .next t => execAll is t
    | .fault r => .fault r
    | .refused r => .refused r

/-- The samples that the TICKs of a sequence read for slot `k`, in order; a TICK in Idle reads none (R90, R100). -/
def samplesOf (k : Nat) : List Instr → State → List QState
  | [], _ => []
  | i :: is, s =>
    let here : List QState :=
      if i = .tick ∧ s.fsm = .running then
        match s.slot k with
        | some sl => [s.sample k sl]
        | none => []
      else []
    match exec i s with
    | .next t => here ++ samplesOf k is t
    | .fault _ => here
    | .refused _ => here

/-- The sum, modulo 2^TW, of the increments in force at the TICKs of a sequence (R107, R176). -/
def incrementsOf : List Instr → State → BitVec Config.tw
  | [], _ => 0#Config.tw
  | i :: is, s =>
    let here : BitVec Config.tw := if i = .tick ∧ s.fsm = .running then s.incr else 0#Config.tw
    match exec i s with
    | .next t => here + incrementsOf is t
    | .fault _ => here
    | .refused _ => here

/-- The number of forward pairs in the walk from `p` along the samples (R84, R100). -/
def forwardSteps : QState → List QState → Nat
  | _, [] => 0
  | p, c :: cs => (if c = nextForward p then 1 else 0) + forwardSteps c cs

/-- The number of reverse pairs in the walk (R84, R100). -/
def reverseSteps : QState → List QState → Nat
  | _, [] => 0
  | p, c :: cs => (if p = nextForward c then 1 else 0) + reverseSteps c cs

/-- The number of diagonal pairs in the walk (R82, R103). -/
def diagonalSteps : QState → List QState → Nat
  | _, [] => 0
  | p, c :: cs => (if p ^^^ c = 3#2 then 1 else 0) + diagonalSteps c cs

/-- One forward line-cycle from `p`: the four successors, the last one `p` again (R101). -/
def forwardCycle (p : QState) : List QState :=
  [nextForward p, nextForward (nextForward p), nextForward (nextForward (nextForward p)), p]

/-- Two registries that differ in nothing but `inv` flags (R14). -/
def sameButInv (xs ys : List (Slot Config.cw)) : Prop :=
  xs.map (fun sl => { sl with inv := false }) = ys.map (fun sl => { sl with inv := false })

/-- The instruction neither assigns slot `k`'s counter nor clears its flag (R100). -/
def leavesSlot (k : Nat) : Instr → Prop
  | .setpos slot _ => slot ≠ k
  | .clrinv slot => slot ≠ k
  | _ => True

/-- The command words R57 calls illegal: a reserved opcode, or a must-be-zero field that is not zero. -/
def IllegalWord (w : CmdWord) : Prop :=
  let op := w.toNat / 2 ^ 36
  let slot := w.toNat / 2 ^ 32 % 16
  let arg := w.toNat % 2 ^ 32
  op = 0 ∨ 7 ≤ op ∨ ((op = 1 ∨ op = 2) ∧ slot ≠ 0) ∨ ((op = 3 ∨ op = 5 ∨ op = 6) ∧ arg ≠ 0)

/-- The (mask, match) pairs of the sixteen CMD rows of spec/opcode_table.json (R58). -/
def commandRows : List (CmdWord × CmdWord) :=
  [ (0xFF00000000#40, 0x1000000000#40), (0xFF00000000#40, 0x2000000000#40),
    (0xF0FFFFFFFF#40, 0x3000000000#40), (0xF000000000#40, 0x4000000000#40),
    (0xF0FFFFFFFF#40, 0x5000000000#40), (0xF0FFFFFFFF#40, 0x6000000000#40) ] ++
  [ (0xF000000000#40, 0x0000000000#40), (0xF000000000#40, 0x7000000000#40),
    (0xF000000000#40, 0x8000000000#40), (0xF000000000#40, 0x9000000000#40),
    (0xF000000000#40, 0xA000000000#40), (0xF000000000#40, 0xB000000000#40),
    (0xF000000000#40, 0xC000000000#40), (0xF000000000#40, 0xD000000000#40),
    (0xF000000000#40, 0xE000000000#40), (0xF000000000#40, 0xF000000000#40) ]

/-- A host command: any instruction carried by a command word (R49). -/
def isCommand (i : Instr) : Bool :=
  match encode i with
  | .cmd _ => true
  | .ev _ => false
  | .tt _ => false

end Sys2Proof.Machine
end

