-- ==== Sys2Proof/Certificates/Slice0/Obligations.lean ====
section
/-! DEFINITION. The statements for the provers. Each docstring names the rules of spec/ it formalises and, where one stands in
it, the choice of the model that it rests on. -/

open Sys2Proof Sys2Proof.Machine

/-! Configuration and encodings. -/

/-- R4: the parameters of the model are a well-formed configuration. -/
def Obligations.ConfigurationIsWellFormed : Prop :=
  (1 ≤ Config.maxEncoders ∧ Config.maxEncoders ≤ 16) ∧
  (2 ≤ Config.cw ∧ Config.cw ≤ 32) ∧
  1 ≤ Config.tw ∧
  (-(2 ^ (Config.cw - 1)) ≤ Config.invalidDelta ∧ Config.invalidDelta < 2 ^ (Config.cw - 1)) ∧
  (Config.invalidDelta ≠ -1 ∧ Config.invalidDelta ≠ 0 ∧ Config.invalidDelta ≠ 1) ∧
  (250 ≤ Config.defaultRateHz ∧ Config.defaultRateHz ≤ 20000) ∧
  ∀ hz, 250 ≤ hz → hz ≤ 20000 →
    1 ≤ (Config.timerIncrement hz).toNat ∧ (Config.timerIncrement hz).toNat ≤ 2 ^ Config.tw - 1

/-- R45, R46: a sample is `2 * bI + bQ`, with high = 1 and low = 0. -/
def Obligations.SamplePacksIAboveQ : Prop :=
  ∀ i q : Level, (pack i q).toNat = 2 * (if i = .high then 1 else 0) + (if q = .high then 1 else 0)

/-- R48: a table value brought to CW bits is its residue modulo 2^CW, and its signed value is the table value again. -/
def Obligations.TableValuesSurviveCounterWidth : Prop :=
  encInt Config.cw 0 = 0#Config.cw ∧ encInt Config.cw 1 = 1#Config.cw ∧
  encInt Config.cw (-1) = BitVec.allOnes Config.cw ∧
  ((encInt Config.cw Config.invalidDelta).toNat : Int) = Config.invalidDelta % 2 ^ Config.cw ∧
  ∀ p c : QState, (encInt Config.cw (TT p c)).toInt = TT p c

/-- Words written out from the encodings of R50 to R54, R57 and R59 and from spec/95_test_vectors.md decode as there. -/
def Obligations.SampleWordsDecode : Prop :=
  decode (.cmd 0x1000020003#40) = .ok (.attach 2#16 3#16) ∧
  decode (.cmd 0x20000003E8#40) = .ok (.setrate 1000) ∧
  decode (.cmd 0x3200000000#40) = .ok (.getpos 2) ∧
  decode (.cmd 0x41FFFFFFFB#40) = .ok (.setpos 1 0xFFFFFFFB#32) ∧
  decode (.cmd 0x5100000000#40) = .ok (.getstat 1) ∧
  decode (.cmd 0x6000000000#40) = .ok (.clrinv 0) ∧
  decode (.cmd 0x0000000000#40) = .ok (.reserved0 0#36) ∧
  decode (.cmd 0xF123456789#40) = .ok (.reservedF 0x123456789#36) ∧
  decode (.cmd 0x3F00000001#40) = .error .argNotZero ∧
  decode (.cmd 0x23000003E8#40) = .error .slotNotZero ∧
  decode (.ev 1#1) = .ok .tick ∧
  decode (.tt 0b1101#4) = .ok .tt31

/-- R49 to R54, R57, R58: what a command word decodes to, by the arithmetic of its three fields. That a word whose must-be-zero
field is not zero is rejected by the name of that field, and is no instruction, is the model's reading (log entry 14). -/
def Obligations.CommandWordsDecodeByFields : Prop :=
  ∀ w : CmdWord,
    let op := w.toNat / 2 ^ 36
    let slot := w.toNat / 2 ^ 32 % 16
    let arg := w.toNat % 2 ^ 32
    (op = 1 → decode (.cmd w) =
      if slot = 0 then .ok (.attach (BitVec.ofNat 16 (arg / 65536)) (BitVec.ofNat 16 (arg % 65536)))
      else .error .slotNotZero) ∧
    (op = 2 → decode (.cmd w) = if slot = 0 then .ok (.setrate arg) else .error .slotNotZero) ∧
    (op = 3 → decode (.cmd w) = if arg = 0 then .ok (.getpos slot) else .error .argNotZero) ∧
    (op = 4 → decode (.cmd w) = .ok (.setpos slot (BitVec.ofNat 32 arg))) ∧
    (op = 5 → decode (.cmd w) = if arg = 0 then .ok (.getstat slot) else .error .argNotZero) ∧
    (op = 6 → decode (.cmd w) = if arg = 0 then .ok (.clrinv slot) else .error .argNotZero) ∧
    (op = 0 → decode (.cmd w) = .ok (.reserved0 (BitVec.ofNat 36 w.toNat))) ∧
    (op = 7 → decode (.cmd w) = .ok (.reserved7 (BitVec.ofNat 36 w.toNat))) ∧
    (op = 8 → decode (.cmd w) = .ok (.reserved8 (BitVec.ofNat 36 w.toNat))) ∧
    (op = 9 → decode (.cmd w) = .ok (.reserved9 (BitVec.ofNat 36 w.toNat))) ∧
    (op = 10 → decode (.cmd w) = .ok (.reservedA (BitVec.ofNat 36 w.toNat))) ∧
    (op = 11 → decode (.cmd w) = .ok (.reservedB (BitVec.ofNat 36 w.toNat))) ∧
    (op = 12 → decode (.cmd w) = .ok (.reservedC (BitVec.ofNat 36 w.toNat))) ∧
    (op = 13 → decode (.cmd w) = .ok (.reservedD (BitVec.ofNat 36 w.toNat))) ∧
    (op = 14 → decode (.cmd w) = .ok (.reservedE (BitVec.ofNat 36 w.toNat))) ∧
    (op = 15 → decode (.cmd w) = .ok (.reservedF (BitVec.ofNat 36 w.toNat)))

/-- R47, R49 to R59: decoding the encoding of a well-formed instruction gives it back, for every instruction. -/
def Obligations.DecodeOfEncodeIsIdentity : Prop :=
  ∀ i : Instr, i.wf = true → decode (encode i) = .ok i

/-- The other direction: whatever decodes is the encoding of what it decodes to, and that is well formed. -/
def Obligations.EncodeOfDecodeIsIdentity : Prop :=
  ∀ (p : Packet) (i : Instr), decode p = .ok i → i.wf = true ∧ encode i = p

/-- R58: a word matches at most one command row of the opcode table, and none exactly when the decoder rejects it. -/
def Obligations.AtMostOneTableRowMatches : Prop :=
  ∀ w : CmdWord,
    commandRows.countP (fun row => decide (w &&& row.1 = row.2)) =
      (match decode (.cmd w) with
       | .ok _ => 1
       | .error _ => 0)

/-- R55, R56: the response word and the codes of the statuses. -/
def Obligations.ResponseWordAndCodes : Prop :=
  (∀ r : Response, r.word.toNat = r.status.code.toNat * 2 ^ 32 + r.data.toNat) ∧
  Status.ok.code = 0 ∧ Status.errCapacity.code = 1 ∧ Status.errRate.code = 2 ∧ Status.errSlot.code = 3 ∧
  Status.errIllegal.code = 4 ∧ Status.causeInvalidTransition.code = 5

/-! The transition table. -/

/-- R66 to R73: the entries of the rows 0 and 1. -/
def Obligations.TableRowsZeroAndOne : Prop :=
  TT 0 0 = 0 ∧ TT 0 1 = 1 ∧ TT 0 2 = -1 ∧ TT 0 3 = Config.invalidDelta ∧
  TT 1 0 = -1 ∧ TT 1 1 = 0 ∧ TT 1 2 = Config.invalidDelta ∧ TT 1 3 = 1

/-- R74 to R81: the entries of the rows 2 and 3. -/
def Obligations.TableRowsTwoAndThree : Prop :=
  TT 2 0 = 1 ∧ TT 2 1 = Config.invalidDelta ∧ TT 2 2 = 0 ∧ TT 2 3 = -1 ∧
  TT 3 0 = Config.invalidDelta ∧ TT 3 1 = -1 ∧ TT 3 2 = 1 ∧ TT 3 3 = 0

/-- R65: a lookup presented as an operation of its own returns its entry and changes no register. That it is presented so, and
that its value stands in the output `lookups`, is the model's choice (log entry 11). -/
def Obligations.EntryLookupsReturnTheirValue : Prop :=
  ∀ s : State,
    let gives (i : Instr) (v : Int) : Prop := exec i s = .next { s with lookups := s.lookups ++ [v] }
    (gives .tt00 0 ∧ gives .tt01 1 ∧ gives .tt02 (-1) ∧ gives .tt03 Config.invalidDelta) ∧
    (gives .tt10 (-1) ∧ gives .tt11 0 ∧ gives .tt12 Config.invalidDelta ∧ gives .tt13 1) ∧
    (gives .tt20 1 ∧ gives .tt21 Config.invalidDelta ∧ gives .tt22 0 ∧ gives .tt23 (-1)) ∧
    (gives .tt30 Config.invalidDelta ∧ gives .tt31 (-1) ∧ gives .tt32 1 ∧ gives .tt33 0)

/-- R82: the class of a pair decides its value, every row holds one 0, one +1, one -1 and one INVALID_DELTA, and the sixteen pairs
hold four of each. -/
def Obligations.PairClassDecidesValue : Prop :=
  (∀ p c : QState,
    (p ^^^ c = 0#2 → TT p c = 0) ∧
    ((p ^^^ c = 1#2 ∨ p ^^^ c = 2#2) → TT p c = 1 ∨ TT p c = -1) ∧
    (p ^^^ c = 3#2 → TT p c = Config.invalidDelta) ∧
    (p ^^^ c = 3#2 ↔ (p, c) ∈ [(0#2, 3#2), (3#2, 0#2), (1#2, 2#2), (2#2, 1#2)])) ∧
  (∀ p : QState,
    let row := [TT p 0, TT p 1, TT p 2, TT p 3]
    row.count 0 = 1 ∧ row.count 1 = 1 ∧ row.count (-1) = 1 ∧ row.count Config.invalidDelta = 1) ∧
  (let all := [0#2, 1#2, 2#2, 3#2].flatMap fun p => [TT p 0, TT p 1, TT p 2, TT p 3]
   all.count 0 = 4 ∧ all.count 1 = 4 ∧ all.count (-1) = 4 ∧ all.count Config.invalidDelta = 4)

/-- R83 to R85: antisymmetry, the closed form by the forward sequence, and the two symmetries. -/
def Obligations.TableClosedFormAndSymmetries : Prop :=
  ∀ p c : QState,
    (TT p c = 1 ↔ c = nextForward p) ∧ (TT p c = -1 ↔ p = nextForward c) ∧
    (p ^^^ c ≠ 3#2 → TT c p = -TT p c) ∧ (p ^^^ c = 3#2 → TT c p = TT p c) ∧
    TT (3#2 - p) (3#2 - c) = TT p c ∧
    ((p ^^^ c = 1#2 ∨ p ^^^ c = 2#2) →
      TT (p.extractLsb' 0 1 ++ p.extractLsb' 1 1) (c.extractLsb' 0 1 ++ c.extractLsb' 1 1) = -TT p c)

/-! TICK. -/

/-- R91: the new deadline is the old one plus the increment, modulo 2^TW, advanced once however many slots there are. -/
def Obligations.TickAdvancesDeadlineByIncrement : Prop :=
  ∀ s : State, s.fsm = .running →
    ∃ t, exec .tick s = .next t ∧ t.deadline.toNat = (s.deadline.toNat + s.incr.toNat) % 2 ^ Config.tw ∧
      t.incr = s.incr

/-- R92 to R97: in Running a TICK updates every attached slot from its own stored state and its own two line reads: the looked-up
delta is added, the flag is set on a diagonal, the sample is stored. The reads are the draws 2k and 2k + 1 of the TICK. -/
def Obligations.TickUpdatesEveryAttachedSlot : Prop :=
  ∀ s : State, s.fsm = .running →
    ∃ t, exec .tick s = .next t ∧ t.occ = s.occ ∧
      ∀ (k : Nat) (sl : Slot Config.cw), s.slots[k]? = some sl →
        let c := pack (s.answer (2 * k) sl.pinI) (s.answer (2 * k + 1) sl.pinQ)
        t.slots[k]? = some
          { pinI := sl.pinI, pinQ := sl.pinQ, state := c,
            cnt := sl.cnt + BitVec.ofInt Config.cw (TT sl.state c),
            inv := sl.inv || decide (sl.state ^^^ c = 3#2) }

/-- R95: the addition wraps in two's complement, whatever the delta. -/
def Obligations.TickCounterWrapsInSignedTerms : Prop :=
  ∀ (s t : State) (k : Nat) (a b : Slot Config.cw), s.fsm = .running → exec .tick s = .next t →
    s.slots[k]? = some a → t.slots[k]? = some b →
      (b.cnt.toNat : Int) = (a.cnt.toNat + TT a.state b.state) % 2 ^ Config.cw ∧
      b.cnt.toInt = (a.cnt.toInt + TT a.state b.state).bmod (2 ^ Config.cw)

/-- R96: `inv` is set exactly by a diagonal pair, by the class of the pair, and else kept. -/
def Obligations.TickSetsInvOnDiagonalOnly : Prop :=
  ∀ (s t : State) (k : Nat) (a b : Slot Config.cw), s.fsm = .running → exec .tick s = .next t →
    s.slots[k]? = some a → t.slots[k]? = some b →
      (a.state ^^^ b.state = 3#2 → b.inv = true) ∧ (a.state ^^^ b.state ≠ 3#2 → b.inv = a.inv)

/-- R99: what a TICK leaves as it was: everything but `deadline` and, of the attached slots, `cnt`, `state` and `inv`; it emits
nothing and responds nothing. -/
def Obligations.TickFrame : Prop :=
  ∀ s t : State, exec .tick s = .next t →
    t.occ = s.occ ∧ t.fsm = s.fsm ∧ t.rateHz = s.rateHz ∧ t.incr = s.incr ∧
    t.slots.map (fun sl => (sl.pinI, sl.pinQ)) = s.slots.map (fun sl => (sl.pinI, sl.pinQ)) ∧
    t.trace = s.trace ∧ t.responses = s.responses ∧ t.lookups = s.lookups ∧
    t.arrivals = s.arrivals ∧ t.deadlines = s.deadlines

/-- R59, R92, R93: a TICK reads the two lines of every attached slot, slots ascending, I before Q, each once, and takes as many
answers of the platform. -/
def Obligations.TickReadsLinesInSlotOrder : Prop :=
  ∀ s : State, s.fsm = .running →
    ∃ t, exec .tick s = .next t ∧
      t.rdPins = s.rdPins ++ s.slots.flatMap (fun sl => [sl.pinI, sl.pinQ]) ∧
      t.levels = s.levels.drop (2 * s.occ) ∧ t.draws = s.draws + 2 * s.occ

/-- R102: what a TICK leaves in slot `k` depends on that slot and its two answers alone, and the deadline on no slot. -/
def Obligations.TickSlotsAreIndependent : Prop :=
  ∀ (s u s' u' : State) (k : Nat) (sl : Slot Config.cw),
    s.fsm = .running → u.fsm = .running → exec .tick s = .next s' → exec .tick u = .next u' →
    s.slots[k]? = some sl → u.slots[k]? = some sl →
    s.answer (2 * k) sl.pinI = u.answer (2 * k) sl.pinI →
    s.answer (2 * k + 1) sl.pinQ = u.answer (2 * k + 1) sl.pinQ →
      s'.slots[k]? = u'.slots[k]? ∧
      (s.deadline = u.deadline → s.incr = u.incr → s'.deadline = u'.deadline)

/-- R108: a TICK is enabled exactly in Running; in Idle the strobe changes nothing and is not remembered.
That the model answers the strobe with an unchanged state is read from the port level (log entry 8). -/
def Obligations.TickInIdleIsIgnored : Prop :=
  ∀ (s : State) (rest : List Arrival), s.fsm = .idle → s.arrivals = .packet (.ev 1#1) :: rest →
    step s = .next { s with arrivals := rest }

/-- R100: over any sequence of operations that neither assigns slot `k`'s counter nor clears its flag, if no pair of consecutive
samples is diagonal, the counter moves by forward minus reverse steps, modulo 2^CW, and `inv` is unchanged. -/
def Obligations.ExactCountingWithoutDiagonals : Prop :=
  ∀ (is : List Instr) (s : State) (k : Nat) (a : Slot Config.cw),
    s.slots[k]? = some a → (∀ i ∈ is, leavesSlot k i) →
    diagonalSteps a.state (samplesOf k is s) = 0 →
    ∃ t b, execAll is s = .next t ∧ t.slots[k]? = some b ∧
      b.state = (samplesOf k is s).getLastD a.state ∧ b.inv = a.inv ∧
      b.cnt.toInt = (a.cnt.toInt + forwardSteps a.state (samplesOf k is s)
        - reverseSteps a.state (samplesOf k is s)).bmod (2 ^ Config.cw)

/-- R103: with diagonal pairs, each adds INVALID_DELTA once and nothing of the lost motion is recovered; the flag is set if there
was one. -/
def Obligations.EachDiagonalAddsTheSentinelOnce : Prop :=
  ∀ (is : List Instr) (s : State) (k : Nat) (a : Slot Config.cw),
    s.slots[k]? = some a → (∀ i ∈ is, leavesSlot k i) →
    ∃ t b, execAll is s = .next t ∧ t.slots[k]? = some b ∧
      b.inv = (a.inv || decide (0 < diagonalSteps a.state (samplesOf k is s))) ∧
      b.cnt.toInt = (a.cnt.toInt + forwardSteps a.state (samplesOf k is s)
        - reverseSteps a.state (samplesOf k is s)
        + diagonalSteps a.state (samplesOf k is s) * Config.invalidDelta).bmod (2 ^ Config.cw)

/-- R101: N forward line-cycles add 4 * N, modulo 2^CW, and return to the state they began in. -/
def Obligations.ForwardLineCyclesCountFourEach : Prop :=
  ∀ (is : List Instr) (s : State) (k n : Nat) (a : Slot Config.cw),
    s.slots[k]? = some a → (∀ i ∈ is, leavesSlot k i) →
    samplesOf k is s = (List.replicate n (forwardCycle a.state)).flatten →
    ∃ t b, execAll is s = .next t ∧ t.slots[k]? = some b ∧ b.state = a.state ∧
      b.cnt = a.cnt + BitVec.ofNat Config.cw (4 * n)

/-- R107, R176: over any sequence of operations from Running, the deadline moves by the sum of the increments in force at its
TICKs, modulo 2^TW. -/
def Obligations.DeadlineAccumulatesIncrements : Prop :=
  ∀ (is : List Instr) (s : State), s.fsm = .running →
    ∃ t, execAll is s = .next t ∧ t.fsm = .running ∧ t.deadline = s.deadline + incrementsOf is s

/-! ATTACH and the control machine. -/

/-- R116, R106, R107: ATTACH below capacity. Running: the two lines are configured, the next slot is filled, the slot index is
returned, nothing else changes. Idle: also Running, the source started with `incr`, the deadline the platform's. -/
def Obligations.AttachFillsTheNextSlot : Prop :=
  ∀ (s : State) (pinI pinQ : PinId), s.occ < Config.maxEncoders →
    let slots' := s.slots ++ [{ pinI := pinI, pinQ := pinQ, state := 0#2, cnt := 0#Config.cw, inv := false }]
    let configured := s.trace ++ [.configureInput pinI, .configureInput pinQ]
    let responses' := s.responses ++ [⟨.ok, BitVec.ofNat 32 s.occ⟩]
    (s.fsm = .running → exec (.attach pinI pinQ) s =
      .next { s with slots := slots', trace := configured, responses := responses' }) ∧
    (s.fsm = .idle → exec (.attach pinI pinQ) s =
      .next { s with
        slots := slots'
        fsm := .running
        trace := configured ++ [.startSource s.incr]
        deadline := s.deadlines.headD (Config.freeDeadline s.draws)
        deadlines := s.deadlines.tail
        draws := s.draws + 1
        responses := responses' })

/-- R117: ATTACH on a full registry changes no register, emits nothing and responds ERR_CAPACITY. -/
def Obligations.AttachBeyondCapacityIsNoOp : Prop :=
  ∀ (s : State) (pinI pinQ : PinId), Config.maxEncoders ≤ s.occ →
    exec (.attach pinI pinQ) s = .next { s with responses := s.responses ++ [⟨.errCapacity, 0#32⟩] }

/-- R110: in a state that meets the invariant and is Idle, an ATTACH succeeds with slot 0. -/
def Obligations.FirstAttachAlwaysSucceeds : Prop :=
  ∀ (s : State) (pinI pinQ : PinId), s.Inv → s.fsm = .idle →
    ∃ t, exec (.attach pinI pinQ) s = .next t ∧ t.fsm = .running ∧ t.occ = 1 ∧
      t.responses = s.responses ++ [⟨.ok, 0#32⟩]

/-- R109, I6 of R23: no step but a reset leaves Running or lowers `occ`. -/
def Obligations.OnlyResetLeavesRunning : Prop :=
  ∀ (s t : State), step s = .next t → s.arrivals.head? ≠ some .reset →
    (s.fsm = .running → t.fsm = .running) ∧ s.occ ≤ t.occ

/-- R106: over all instructions, the source is started exactly by the transition from Idle to Running, once each. -/
def Obligations.SourceStartsExactlyOnTheTransition : Prop :=
  ∀ (i : Instr) (s t : State), exec i s = .next t →
    sourceStarts t.trace = sourceStarts s.trace + (if s.fsm = .idle ∧ t.fsm = .running then 1 else 0) ∧
    (t.fsm ≠ s.fsm → s.fsm = .idle ∧ t.fsm = .running ∧ ∃ pinI pinQ, i = .attach pinI pinQ)

/-- R167: the first TICK after an ATTACH compares the lines with state 0, in the four cases of the rule. -/
def Obligations.FirstTickAfterAttach : Prop :=
  ∀ (s t : State) (pinI pinQ : PinId), s.occ < Config.maxEncoders → exec (.attach pinI pinQ) s = .next t →
    ∃ u b, exec .tick t = .next u ∧ u.slots[s.occ]? = some b ∧
      (let i := t.answer (2 * s.occ) pinI
       let q := t.answer (2 * s.occ + 1) pinQ
       (i = .low → q = .low → b.cnt.toInt = 0 ∧ b.inv = false) ∧
       (i = .low → q = .high → b.cnt = 1#Config.cw ∧ b.inv = false) ∧
       (i = .high → q = .low → b.cnt.toInt = -1 ∧ b.inv = false) ∧
       (i = .high → q = .high → b.cnt.toInt = Config.invalidDelta ∧ b.inv = true))

/-! The other host commands. -/

/-- R118: an accepted SETRATE sets the rate and its increment together, returns the rate, and changes nothing else. -/
def Obligations.SetrateAcceptsRatesInRange : Prop :=
  ∀ (s : State) (hz : Nat), 250 ≤ hz → hz ≤ 20000 →
    exec (.setrate hz) s = .next { s with
      rateHz := hz
      incr := Config.timerIncrement hz
      responses := s.responses ++ [⟨.ok, BitVec.ofNat 32 hz⟩] }

/-- R119: a rate outside the range is rejected with ERR_RATE and data 0, and every register keeps its value. -/
def Obligations.SetrateRejectsRatesOutOfRange : Prop :=
  ∀ (s : State) (hz : Nat), hz < 250 ∨ 20000 < hz →
    exec (.setrate hz) s = .next { s with responses := s.responses ++ [⟨.errRate, 0#32⟩] }

/-- R40, R171: an accepted SETRATE does not touch the deadline, and the TICK after it advances the deadline by the new
increment. -/
def Obligations.NewIncrementCountsFromTheNextTick : Prop :=
  ∀ (s : State) (hz : Nat), s.fsm = .running → 250 ≤ hz → hz ≤ 20000 →
    ∃ t u, exec (.setrate hz) s = .next t ∧ t.deadline = s.deadline ∧
      exec .tick t = .next u ∧ u.deadline = s.deadline + Config.timerIncrement hz

/-- R120: GETPOS of an attached slot returns its counter, sign-extended, and changes no register. -/
def Obligations.GetposReturnsTheCounter : Prop :=
  ∀ (s : State) (k : Nat) (sl : Slot Config.cw), s.slots[k]? = some sl →
    exec (.getpos k) s = .next { s with responses := s.responses ++ [⟨.ok, BitVec.ofInt 32 sl.cnt.toInt⟩] }

/-- R42: two reads with no operation between them return the same data and change no register. -/
def Obligations.ReadsHaveNoSideEffect : Prop :=
  ∀ (s : State) (k : Nat), ∃ r r' : Response,
    execAll [.getpos k, .getpos k] s = .next { s with responses := s.responses ++ [r, r] } ∧
    execAll [.getstat k, .getstat k] s = .next { s with responses := s.responses ++ [r', r'] }

/-- R121: SETPOS of an attached slot assigns the low CW bits of the value to its counter and changes nothing else. -/
def Obligations.SetposAssignsTheCounter : Prop :=
  ∀ (s : State) (k : Nat) (v : DataWord) (sl : Slot Config.cw), s.slots[k]? = some sl →
    exec (.setpos k v) s = .next { s with
      slots := s.slots.set k { sl with cnt := BitVec.ofNat Config.cw v.toNat }
      responses := s.responses ++ [⟨.ok, 0#32⟩] }

/-- R53, R120, R121: a value that fits the counter is read back whole. -/
def Obligations.SetposThenGetposReadsBack : Prop :=
  ∀ (s : State) (k : Nat) (z : Int), k < s.occ → -(2 ^ (Config.cw - 1)) ≤ z → z < 2 ^ (Config.cw - 1) →
    ∃ t u, exec (.setpos k (BitVec.ofInt 32 z)) s = .next t ∧ exec (.getpos k) t = .next u ∧
      u.responses = s.responses ++ [⟨.ok, 0#32⟩, ⟨.ok, BitVec.ofInt 32 z⟩]

/-- R122: GETSTAT returns `inv` in bit 2 and the state in bits 1..0, all other bits 0, and changes no register. -/
def Obligations.GetstatReturnsFlagAndState : Prop :=
  ∀ (s : State) (k : Nat) (sl : Slot Config.cw), s.slots[k]? = some sl →
    exec (.getstat k) s = .next { s with responses := s.responses ++
      [⟨.ok, BitVec.ofNat 32 ((if sl.inv then 4 else 0) + sl.state.toNat)⟩] }

/-- R123: CLRINV of an attached slot clears its flag and changes nothing else. -/
def Obligations.ClrinvClearsTheFlag : Prop :=
  ∀ (s : State) (k : Nat) (sl : Slot Config.cw), s.slots[k]? = some sl →
    exec (.clrinv k) s = .next { s with
      slots := s.slots.set k { sl with inv := false }
      responses := s.responses ++ [⟨.ok, 0#32⟩] }

/-- R127: the four slot-addressed commands on a slot that is not attached respond ERR_SLOT and change no register. -/
def Obligations.BadSlotIsRefused : Prop :=
  ∀ (s : State) (k : Nat) (v : DataWord), s.occ ≤ k →
    ∀ i ∈ [Instr.getpos k, Instr.setpos k v, Instr.getstat k, Instr.clrinv k],
      exec i s = .next { s with responses := s.responses ++ [⟨.errSlot, 0#32⟩] }

/-- R124: the ten reserved opcodes respond ERR_ILLEGAL with data 0, whatever their other bits, and change no register. -/
def Obligations.ReservedOpcodesAreIllegal : Prop :=
  ∀ (s : State) (x : BitVec 36),
    ∀ i ∈ [Instr.reserved0 x, .reserved7 x, .reserved8 x, .reserved9 x, .reservedA x, .reservedB x, .reservedC x,
        .reservedD x, .reservedE x, .reservedF x],
      exec i s = .next { s with responses := s.responses ++ [⟨.errIllegal, 0#32⟩] }

/-- R57, R124: a step on an illegal word responds ERR_ILLEGAL with data 0 and changes no register; every other word is one of the
six commands. -/
def Obligations.IllegalWordsAreAnswered : Prop :=
  ∀ (s : State) (w : CmdWord) (rest : List Arrival), s.arrivals = .packet (.cmd w) :: rest →
    (IllegalWord w → step s = .next { s with
      arrivals := rest
      responses := s.responses ++ [⟨.errIllegal, 0#32⟩] }) ∧
    (¬ IllegalWord w → ∃ i, decode (.cmd w) = .ok i ∧
      ((∃ a b, i = .attach a b) ∨ (∃ hz, i = .setrate hz) ∨ (∃ k, i = .getpos k) ∨ (∃ k v, i = .setpos k v) ∨
       (∃ k, i = .getstat k) ∨ (∃ k, i = .clrinv k)))

/-! Rules over all instructions. -/

/-- R55, R115: a command gives exactly one response, a refused one has data 0 and leaves all else as it was; a TICK and a
lookup give none. A TICK that is enabled always completes (R98). That a TICK in Idle, which R108 gives no step, completes with the
state unchanged is the model's choice (log entry 8), and so is that the table lookups are instructions (log entry 11). -/
def Obligations.EveryCommandRespondsOnce : Prop :=
  ∀ (i : Instr) (s : State), ∃ t, exec i s = .next t ∧
    (isCommand i = true → ∃ r : Response, t.responses = s.responses ++ [r] ∧ r.Admissible ∧
      (r.status ≠ .ok → t = { s with responses := s.responses ++ [⟨r.status, 0#32⟩] })) ∧
    (isCommand i = false → t.responses = s.responses)

/-- R27: who may write what, over all instructions. -/
def Obligations.OnlyTheNamedOperationsWrite : Prop :=
  ∀ (i : Instr) (s t : State), exec i s = .next t →
    ((t.occ ≠ s.occ ∨ t.fsm ≠ s.fsm) → ∃ a b, i = .attach a b) ∧
    ((t.rateHz ≠ s.rateHz ∨ t.incr ≠ s.incr) → ∃ hz, i = .setrate hz) ∧
    (t.deadline ≠ s.deadline → i = .tick ∨ (s.fsm = .idle ∧ ∃ a b, i = .attach a b)) ∧
    ∀ (k : Nat) (a : Slot Config.cw), s.slots[k]? = some a →
      ∃ b, t.slots[k]? = some b ∧ b.pinI = a.pinI ∧ b.pinQ = a.pinQ ∧
        (b.state ≠ a.state → i = .tick) ∧
        (b.cnt ≠ a.cnt → i = .tick ∨ ∃ v, i = .setpos k v) ∧
        (b.inv ≠ a.inv → i = .tick ∨ i = .clrinv k)

/-- R14: `inv` is a pure observer: two states that differ in their flags alone stay so under every instruction, and every other
part of the two, but for the data of a GETSTAT, goes on alike. -/
def Obligations.InvFlagInfluencesNothingElse : Prop :=
  ∀ (i : Instr) (s s' : State) (others : List (Slot Config.cw)), (∀ k, i ≠ .getstat k) →
    sameButInv s.slots others → exec i s = .next s' →
    ∃ u, exec i { s with slots := others } = .next u ∧ sameButInv s'.slots u.slots ∧
      u = { s' with slots := u.slots }

/-- R140, R148: a step is never a refusal, and a fault exactly on a tick strobe during a TICK.
The arrival that stands for it, and its being ignored in Idle, are the model's reading (log entry 9). -/
def Obligations.StepStopsOnlyOnOverlappedTick : Prop :=
  ∀ s : State,
    (∀ r, step s ≠ .refused r) ∧
    (step s = .fault .tickDuringTick ↔ s.arrivals.head? = some .overlappedTick ∧ s.fsm = .running)

/-! Steps, reset and invariants. -/

/-- When the packet presented next decodes to an instruction, the step is that instruction's meaning on the state with the packet
taken (R38; presenting packets in `arrivals` is the model's choice, log entry 6). -/
def Obligations.StepRunsTheDecodedInstruction : Prop :=
  ∀ (s : State) (p : Packet) (rest : List Arrival) (i : Instr),
    s.arrivals = .packet p :: rest → decode p = .ok i → step s = exec i { s with arrivals := rest }

/-- R150: a TICK and a command presented at the same instant: the TICK first, then, in the step after it, the command on the state
the TICK left. -/
def Obligations.TickBeforeSimultaneousCommand : Prop :=
  ∀ (s : State) (w : CmdWord) (rest : List Arrival), s.arrivals = .tickWithCommand w :: rest →
    ∃ t, exec .tick { s with arrivals := rest } = .next t ∧
      Host.Core.run core 2 s = step { t with arrivals := .packet (.cmd w) :: rest }

/-- With nothing presented the block waits. The model's choice (log entry 6); R112 leaves open whether anything ever arrives. -/
def Obligations.NothingPresentedNothingDone : Prop :=
  ∀ s : State, s.arrivals = [] → step s = .next s

/-- R25, R165: the registers after reset for which the spec gives a value, and the first slot filled from there. -/
def Obligations.ResetRegisters : Prop :=
  State.reset.occ = 0 ∧ State.reset.fsm = .idle ∧ State.reset.rateHz = Config.defaultRateHz ∧
  State.reset.incr = Config.timerIncrement Config.defaultRateHz ∧
  ∀ a b : PinId, ∃ t, exec (.attach a b) State.reset = .next t ∧
    t.slots = [{ pinI := a, pinQ := b, state := 0#2, cnt := 0#Config.cw, inv := false }]

/-- R165: a reset from any state discards the registry and gives every register its reset value. That the waiting inputs and the
given outputs stay is the model's choice (log entry 13), and so is the deadline's value (log entry 4). -/
def Obligations.ResetDiscardsEverything : Prop :=
  ∀ (s : State) (rest : List Arrival), s.arrivals = .reset :: rest →
    step s = .next { State.reset with
      arrivals := rest
      levels := s.levels
      deadlines := s.deadlines
      draws := s.draws
      trace := s.trace
      responses := s.responses
      rdPins := s.rdPins
      lookups := s.lookups }

/-- R23: the invariants I1 to I4 hold after reset. -/
def Obligations.ResetMeetsTheInvariants : Prop := State.reset.Inv

/-- R23: every step keeps the invariants, from every state that meets them. -/
def Obligations.StepKeepsTheInvariants : Prop :=
  ∀ s t : State, s.Inv → step s = .next t → t.Inv

/-- I5 of R23, R116: the attached slots' identifiers are those last configured, in slot order; after reset and kept by every
step. -/
def Obligations.StepKeepsLinesConfigured : Prop :=
  State.reset.LinesConfigured ∧ ∀ s t : State, s.LinesConfigured → step s = .next t → t.LinesConfigured

/-- R11, R126: a handle stays valid: every step but a reset leaves an attached slot attached under its index with its two
identifiers. -/
def Obligations.HandlesStayValidUntilReset : Prop :=
  ∀ (s t : State) (k : Nat) (a : Slot Config.cw), step s = .next t → s.arrivals.head? ≠ some .reset →
    s.slots[k]? = some a → ∃ b, t.slots[k]? = some b ∧ b.pinI = a.pinI ∧ b.pinQ = a.pinQ

/-! The ports. -/

/-- R61: while a TICK is in progress `cmd_ready` is 0; a command that does not meet valid and ready leaves the arrivals as the same
instant without it does, and one that does is taken, behind the tick of its instant (R150). A TICK in progress is what the step
does; a strobe during it makes the step a fault (R148). A strobed TICK is in progress until its step, and after the step `cmd_ready`
is 1. When a TICK is in progress, and `cmd_ready` at an instant of reset and at all other times, are the model's reading (log
entry 21), and the fault is that of log entry 9. -/
def Obligations.PortsSerialiseCommandsAgainstTicks : Prop :=
  ∀ (rst tickPort valid : Bool) (w : CmdWord) (s : State),
    (tickInProgress s = true → cmdReady rst s = false) ∧
    ((valid && cmdReady rst s) = false → presentPorts rst tickPort valid w s = presentPorts rst tickPort false w s) ∧
    ((valid && cmdReady rst s) = true → presentPorts rst tickPort valid w s =
      { s with arrivals := s.arrivals ++ [if tickPort = true then .tickWithCommand w else .packet (.cmd w)] }) ∧
    (tickInProgress s = true → s.arrivals.head? ≠ some .overlappedTick →
      ∃ rest, step s = .next (tick { s with arrivals := rest })) ∧
    (tickInProgress s = true → step (presentPorts false true valid w s) = .fault .tickDuringTick) ∧
    (s.fsm = .running → s.arrivals = [] →
      tickInProgress (presentPorts false true false w s) = true ∧
      step (presentPorts false true false w s) = .next (tick s) ∧
      cmdReady false (tick s) = true)

/-- R55, R60, R61: the output ports. Every command gives one valid pulse with its response word, a TICK and a lookup none; the request
ports give one valid pulse for each event, with its operand, and none where nothing is emitted. That each event and each response
has an instant of its own, so that at the pulse of one request port the other's valid is 0, is the model's choice (log entry 22). -/
def Obligations.PortsPulseOncePerResponseAndRequest : Prop :=
  (∀ (i : Instr) (s t : State), exec i s = .next t →
    (isCommand i = true → ∃ r, t.responses = s.responses ++ [r] ∧
      responsePulses t = responsePulses s ++ [⟨true, r.word⟩]) ∧
    (isCommand i = false → responsePulses t = responsePulses s)) ∧
  (∀ (e : Event) (s : State), ∃ p, requestPulses (emit e s) = requestPulses s ++ [p] ∧
    match e with
    | .configureInput pin => p.cfgValid = true ∧ p.cfgPin = pin ∧ p.startValid = false
    | .startSource interval => p.startValid = true ∧ p.startInterval = interval ∧ p.cfgValid = false) ∧
  (∀ n, (requestPorts n none).cfgValid = false ∧ (requestPorts n none).startValid = false ∧
    (responsePorts n none).rspValid = false)
end

