-- ==== Sys2Proof/Laws/Config.lean ====
section
/-! SUPPORT. The parameters computed from the opaque constants stay inside the ranges of R4 and reach every value of them:
no admissible configuration is left out, and none that is not admissible is let in. -/

namespace Sys2Proof.Config

theorem maxEncoders_pos : 0 < maxEncoders := Nat.succ_pos _

theorem cw_ge_two : 2 ≤ cw := Nat.le_add_left _ _

theorem cw_le : cw ≤ 32 := by
  have := rawCw.isLt
  unfold cw; omega

theorem tw_pos : 1 ≤ tw := Nat.le_add_left _ _

theorem four_le_two_pow {w : Nat} (hw : 2 ≤ w) : 4 ≤ 2 ^ w :=
  Nat.pow_le_pow_right (n := 2) (by omega) hw

/-- The pattern behind a sentinel. -/
theorem sentinel_pattern {w : Nat} (hw : 2 ≤ w) (raw : Nat) :
    (BitVec.ofNat w (2 + raw % (2 ^ w - 3))).toNat = 2 + raw % (2 ^ w - 3) := by
  have h4 := four_le_two_pow hw
  have := Nat.mod_lt raw (y := 2 ^ w - 3) (by omega)
  rw [BitVec.toNat_ofNat, Nat.mod_eq_of_lt (by omega)]

/-- Every sentinel is none of -1, 0, +1 (R4). -/
theorem sentinel_not_small {w : Nat} (hw : 2 ≤ w) (raw : Nat) :
    sentinel w raw ≠ -1 ∧ sentinel w raw ≠ 0 ∧ sentinel w raw ≠ 1 := by
  have h4 := four_le_two_pow hw
  have hp := sentinel_pattern hw raw
  have hm := Nat.mod_lt raw (y := 2 ^ w - 3) (by omega)
  unfold sentinel
  rw [BitVec.toInt_eq_toNat_cond, hp]
  have hc : ((2 ^ w : Nat) : Int) = (2 : Int) ^ w := by norm_cast
  split <;> refine ⟨?_, ?_, ?_⟩ <;> omega

/-- Every sentinel is a signed `w`-bit value (R4). -/
theorem sentinel_range (w raw : Nat) :
    -(2 ^ (w - 1)) ≤ sentinel w raw ∧ sentinel w raw < 2 ^ (w - 1) := by
  unfold sentinel
  exact ⟨BitVec.le_toInt _, BitVec.toInt_lt⟩

/-- Every admissible value of INVALID_DELTA is some sentinel. -/
theorem sentinel_surjective {w : Nat} (hw : 2 ≤ w) (z : Int)
    (hr : -(2 ^ (w - 1)) ≤ z ∧ z < 2 ^ (w - 1)) (h : z ≠ -1 ∧ z ≠ 0 ∧ z ≠ 1) :
    ∃ raw, sentinel w raw = z := by
  have h4 := four_le_two_pow hw
  have hpow : (2 : Int) ^ w = 2 * 2 ^ (w - 1) := by
    rw [← pow_succ']; congr 1; omega
  have hto : (BitVec.ofInt w z).toInt = z := BitVec.toInt_ofInt_eq_self (by omega) hr.1 hr.2
  have hc : ((2 ^ w : Nat) : Int) = (2 : Int) ^ w := by norm_cast
  have hcond := BitVec.toInt_eq_toNat_cond (BitVec.ofInt w z)
  have hlt := (BitVec.ofInt w z).isLt
  have hge : 2 ≤ (BitVec.ofInt w z).toNat := by
    rw [hto] at hcond; split at hcond <;> omega
  have hle : (BitVec.ofInt w z).toNat - 2 < 2 ^ w - 3 := by
    rw [hto] at hcond; split at hcond <;> omega
  refine ⟨(BitVec.ofInt w z).toNat - 2, ?_⟩
  unfold sentinel
  rw [Nat.mod_eq_of_lt hle, Nat.add_sub_cancel' hge, BitVec.ofNat_toNat, BitVec.setWidth_eq, hto]

/-- Every increment is in 1 .. 2^w - 1 (R4). -/
theorem increment_range {w : Nat} (hw : 1 ≤ w) (raw : Nat) :
    1 ≤ (increment w raw).toNat ∧ (increment w raw).toNat ≤ 2 ^ w - 1 := by
  have h2 : 2 ≤ 2 ^ w := by simpa using Nat.pow_le_pow_right (n := 2) (by omega) hw
  have hm := Nat.mod_lt raw (y := 2 ^ w - 1) (by omega)
  unfold increment
  rw [BitVec.toNat_ofNat, Nat.mod_eq_of_lt (by omega)]
  omega

/-- Every function into 1 .. 2^w - 1 is an increment function. -/
theorem increment_surjective {w : Nat} (f : Nat → BitVec w) (hf : ∀ hz, 1 ≤ (f hz).toNat) :
    ∃ raw : Nat → Nat, ∀ hz, increment w (raw hz) = f hz := by
  refine ⟨fun hz => (f hz).toNat - 1, fun hz => ?_⟩
  show increment w ((f hz).toNat - 1) = f hz
  have h1 := hf hz
  have hlt := (f hz).isLt
  unfold increment
  rw [Nat.mod_eq_of_lt (by omega), Nat.add_sub_cancel' h1, BitVec.ofNat_toNat, BitVec.setWidth_eq]

end Sys2Proof.Config
end

