-- ==== Sys2Proof/Laws/Decode.lean ====
section
/-! SUPPORT. The fields of a command word and the word made of them undo each other; the decoder on a word given by fields. -/

namespace Sys2Proof

theorem opOf_toNat (w : CmdWord) : (opOf w).toNat = w.toNat / 2 ^ 36 := by
  have := w.isLt
  simp only [opOf, BitVec.extractLsb'_toNat, Nat.shiftRight_eq_div_pow]
  omega

theorem slotOf_toNat (w : CmdWord) : (slotOf w).toNat = w.toNat / 2 ^ 32 % 16 := by
  simp only [slotOf, BitVec.extractLsb'_toNat, Nat.shiftRight_eq_div_pow]

theorem argOf_toNat (w : CmdWord) : (argOf w).toNat = w.toNat % 2 ^ 32 := by
  simp only [argOf, BitVec.extractLsb'_toNat, Nat.shiftRight_zero]

theorem restOf_toNat (w : CmdWord) : (restOf w).toNat = w.toNat % 2 ^ 36 := by
  simp only [restOf, BitVec.extractLsb'_toNat, Nat.shiftRight_zero]

theorem pinIOf_toNat (a : DataWord) : (pinIOf a).toNat = a.toNat / 65536 := by
  have := a.isLt
  simp only [pinIOf, BitVec.extractLsb'_toNat, Nat.shiftRight_eq_div_pow]
  omega

theorem pinQOf_toNat (a : DataWord) : (pinQOf a).toNat = a.toNat % 65536 := by
  simp only [pinQOf, BitVec.extractLsb'_toNat, Nat.shiftRight_zero]

theorem cmdWord_toNat (op slot : BitVec 4) (arg : DataWord) :
    (cmdWord op slot arg).toNat = op.toNat * 2 ^ 36 + slot.toNat * 2 ^ 32 + arg.toNat := by
  have := slot.isLt
  have := arg.isLt
  simp only [cmdWord, BitVec.toNat_append]
  rw [← Nat.shiftLeft_add_eq_or_of_lt (by omega), ← Nat.shiftLeft_add_eq_or_of_lt (by omega)]
  simp only [Nat.shiftLeft_eq]
  omega

theorem reservedWord_toNat (op : BitVec 4) (rest : BitVec 36) :
    (reservedWord op rest).toNat = op.toNat * 2 ^ 36 + rest.toNat := by
  have := rest.isLt
  simp only [reservedWord, BitVec.toNat_append]
  rw [← Nat.shiftLeft_add_eq_or_of_lt (by omega), Nat.shiftLeft_eq]

theorem pins_toNat (pinI pinQ : PinId) : ((pinI ++ pinQ : DataWord)).toNat = pinI.toNat * 65536 + pinQ.toNat := by
  have := pinQ.isLt
  rw [BitVec.toNat_append, ← Nat.shiftLeft_add_eq_or_of_lt (by omega), Nat.shiftLeft_eq]

@[simp] theorem opOf_cmdWord (op slot : BitVec 4) (arg : DataWord) : opOf (cmdWord op slot arg) = op := by
  have := slot.isLt
  have := arg.isLt
  apply BitVec.eq_of_toNat_eq
  rw [opOf_toNat, cmdWord_toNat]; omega

@[simp] theorem slotOf_cmdWord (op slot : BitVec 4) (arg : DataWord) : slotOf (cmdWord op slot arg) = slot := by
  have := slot.isLt
  have := arg.isLt
  apply BitVec.eq_of_toNat_eq
  rw [slotOf_toNat, cmdWord_toNat]; omega

@[simp] theorem argOf_cmdWord (op slot : BitVec 4) (arg : DataWord) : argOf (cmdWord op slot arg) = arg := by
  have := slot.isLt
  have := arg.isLt
  apply BitVec.eq_of_toNat_eq
  rw [argOf_toNat, cmdWord_toNat]; omega

@[simp] theorem opOf_reservedWord (op : BitVec 4) (rest : BitVec 36) : opOf (reservedWord op rest) = op := by
  have := rest.isLt
  apply BitVec.eq_of_toNat_eq
  rw [opOf_toNat, reservedWord_toNat]; omega

@[simp] theorem restOf_reservedWord (op : BitVec 4) (rest : BitVec 36) : restOf (reservedWord op rest) = rest := by
  have := rest.isLt
  apply BitVec.eq_of_toNat_eq
  rw [restOf_toNat, reservedWord_toNat]; omega

@[simp] theorem pinIOf_append (pinI pinQ : PinId) : pinIOf (pinI ++ pinQ) = pinI := by
  have := pinQ.isLt
  apply BitVec.eq_of_toNat_eq
  rw [pinIOf_toNat, pins_toNat]; omega

@[simp] theorem pinQOf_append (pinI pinQ : PinId) : pinQOf (pinI ++ pinQ) = pinQ := by
  have := pinQ.isLt
  apply BitVec.eq_of_toNat_eq
  rw [pinQOf_toNat, pins_toNat]; omega

/-- A word is made of its fields. -/
theorem cmdWord_fields (w : CmdWord) : cmdWord (opOf w) (slotOf w) (argOf w) = w := by
  apply BitVec.eq_of_toNat_eq
  rw [cmdWord_toNat, opOf_toNat, slotOf_toNat, argOf_toNat]; omega

/-- A word is made of its opcode and its other bits. -/
theorem reservedWord_fields (w : CmdWord) : reservedWord (opOf w) (restOf w) = w := by
  apply BitVec.eq_of_toNat_eq
  rw [reservedWord_toNat, opOf_toNat, restOf_toNat]; omega

/-- `arg` is made of its two halves. -/
theorem pins_fields (a : DataWord) : (pinIOf a ++ pinQOf a : DataWord) = a := by
  apply BitVec.eq_of_toNat_eq
  rw [pins_toNat, pinIOf_toNat, pinQOf_toNat]; omega

/-- Masking a word field by field. -/
theorem cmdWord_and (op slot op' slot' : BitVec 4) (arg arg' : DataWord) :
    cmdWord op slot arg &&& cmdWord op' slot' arg' = cmdWord (op &&& op') (slot &&& slot') (arg &&& arg') := by
  simp only [cmdWord, ← BitVec.and_append]

theorem reservedWord_and (op op' : BitVec 4) (rest rest' : BitVec 36) :
    reservedWord op rest &&& reservedWord op' rest' = reservedWord (op &&& op') (rest &&& rest') := by
  simp only [reservedWord, ← BitVec.and_append]

/-- The table's masks, as words by field. -/
theorem mask_op_slot : (0xFF00000000#40 : CmdWord) = cmdWord 15#4 15#4 0#32 := by decide
theorem mask_op_arg : (0xF0FFFFFFFF#40 : CmdWord) = cmdWord 15#4 0#4 0xFFFFFFFF#32 := by decide
theorem mask_op : (0xF000000000#40 : CmdWord) = cmdWord 15#4 0#4 0#32 := by decide
theorem mask_op_rest : (0xF000000000#40 : CmdWord) = reservedWord 15#4 0#36 := by decide

theorem and_fifteen (x : BitVec 4) : x &&& 15#4 = x := by
  revert x; decide

end Sys2Proof
end

