-- ==== Sys2Proof/Laws/State.lean ====
section
/-! SUPPORT. One lemma per field of State per shared update, all true by rfl, so that no later proof unfolds a record
update. `refuse` and `illegalCommand` are brought to the one spelling `respond`. -/

namespace Sys2Proof.Machine

@[simp] theorem refuse_eq (st : Status) (s : State) : refuse st s = respond st 0#32 s := rfl

@[simp] theorem illegalCommand_eq (s : State) : illegalCommand s = respond .errIllegal 0#32 s := rfl

@[simp] theorem rejectPacket_strobeLow (s : State) : rejectPacket .strobeLow s = s := rfl

@[simp] theorem rejectPacket_slotNotZero (s : State) : rejectPacket .slotNotZero s = respond .errIllegal 0#32 s := rfl

@[simp] theorem rejectPacket_argNotZero (s : State) : rejectPacket .argNotZero s = respond .errIllegal 0#32 s := rfl

theorem occ_eq (s : State) : s.occ = s.slots.length := rfl

theorem slot_eq (s : State) (k : Nat) : s.slot k = s.slots[k]? := rfl

@[simp] theorem respond_slots (st : Status) (d : DataWord) (s : State) : (respond st d s).slots = s.slots := rfl
@[simp] theorem respond_fsm (st : Status) (d : DataWord) (s : State) : (respond st d s).fsm = s.fsm := rfl
@[simp] theorem respond_rateHz (st : Status) (d : DataWord) (s : State) : (respond st d s).rateHz = s.rateHz := rfl
@[simp] theorem respond_incr (st : Status) (d : DataWord) (s : State) : (respond st d s).incr = s.incr := rfl
@[simp] theorem respond_deadline (st : Status) (d : DataWord) (s : State) : (respond st d s).deadline = s.deadline := rfl
@[simp] theorem respond_arrivals (st : Status) (d : DataWord) (s : State) : (respond st d s).arrivals = s.arrivals := rfl
@[simp] theorem respond_levels (st : Status) (d : DataWord) (s : State) : (respond st d s).levels = s.levels := rfl
@[simp] theorem respond_deadlines (st : Status) (d : DataWord) (s : State) : (respond st d s).deadlines = s.deadlines := rfl
@[simp] theorem respond_draws (st : Status) (d : DataWord) (s : State) : (respond st d s).draws = s.draws := rfl
@[simp] theorem respond_trace (st : Status) (d : DataWord) (s : State) : (respond st d s).trace = s.trace := rfl
@[simp] theorem respond_responses (st : Status) (d : DataWord) (s : State) : (respond st d s).responses = s.responses ++ [⟨st, d⟩] := rfl
@[simp] theorem respond_rdPins (st : Status) (d : DataWord) (s : State) : (respond st d s).rdPins = s.rdPins := rfl
@[simp] theorem respond_lookups (st : Status) (d : DataWord) (s : State) : (respond st d s).lookups = s.lookups := rfl

@[simp] theorem emit_slots (e : Event) (s : State) : (emit e s).slots = s.slots := rfl
@[simp] theorem emit_fsm (e : Event) (s : State) : (emit e s).fsm = s.fsm := rfl
@[simp] theorem emit_rateHz (e : Event) (s : State) : (emit e s).rateHz = s.rateHz := rfl
@[simp] theorem emit_incr (e : Event) (s : State) : (emit e s).incr = s.incr := rfl
@[simp] theorem emit_deadline (e : Event) (s : State) : (emit e s).deadline = s.deadline := rfl
@[simp] theorem emit_arrivals (e : Event) (s : State) : (emit e s).arrivals = s.arrivals := rfl
@[simp] theorem emit_levels (e : Event) (s : State) : (emit e s).levels = s.levels := rfl
@[simp] theorem emit_deadlines (e : Event) (s : State) : (emit e s).deadlines = s.deadlines := rfl
@[simp] theorem emit_draws (e : Event) (s : State) : (emit e s).draws = s.draws := rfl
@[simp] theorem emit_trace (e : Event) (s : State) : (emit e s).trace = s.trace ++ [e] := rfl
@[simp] theorem emit_responses (e : Event) (s : State) : (emit e s).responses = s.responses := rfl
@[simp] theorem emit_rdPins (e : Event) (s : State) : (emit e s).rdPins = s.rdPins := rfl
@[simp] theorem emit_lookups (e : Event) (s : State) : (emit e s).lookups = s.lookups := rfl

@[simp] theorem modifySlot_slots (k : Nat) (f : Slot Config.cw → Slot Config.cw) (s : State) : (modifySlot k f s).slots = s.slots.modify k f := rfl
@[simp] theorem modifySlot_fsm (k : Nat) (f : Slot Config.cw → Slot Config.cw) (s : State) : (modifySlot k f s).fsm = s.fsm := rfl
@[simp] theorem modifySlot_rateHz (k : Nat) (f : Slot Config.cw → Slot Config.cw) (s : State) : (modifySlot k f s).rateHz = s.rateHz := rfl
@[simp] theorem modifySlot_incr (k : Nat) (f : Slot Config.cw → Slot Config.cw) (s : State) : (modifySlot k f s).incr = s.incr := rfl
@[simp] theorem modifySlot_deadline (k : Nat) (f : Slot Config.cw → Slot Config.cw) (s : State) : (modifySlot k f s).deadline = s.deadline := rfl
@[simp] theorem modifySlot_arrivals (k : Nat) (f : Slot Config.cw → Slot Config.cw) (s : State) : (modifySlot k f s).arrivals = s.arrivals := rfl
@[simp] theorem modifySlot_levels (k : Nat) (f : Slot Config.cw → Slot Config.cw) (s : State) : (modifySlot k f s).levels = s.levels := rfl
@[simp] theorem modifySlot_deadlines (k : Nat) (f : Slot Config.cw → Slot Config.cw) (s : State) : (modifySlot k f s).deadlines = s.deadlines := rfl
@[simp] theorem modifySlot_draws (k : Nat) (f : Slot Config.cw → Slot Config.cw) (s : State) : (modifySlot k f s).draws = s.draws := rfl
@[simp] theorem modifySlot_trace (k : Nat) (f : Slot Config.cw → Slot Config.cw) (s : State) : (modifySlot k f s).trace = s.trace := rfl
@[simp] theorem modifySlot_responses (k : Nat) (f : Slot Config.cw → Slot Config.cw) (s : State) : (modifySlot k f s).responses = s.responses := rfl
@[simp] theorem modifySlot_rdPins (k : Nat) (f : Slot Config.cw → Slot Config.cw) (s : State) : (modifySlot k f s).rdPins = s.rdPins := rfl
@[simp] theorem modifySlot_lookups (k : Nat) (f : Slot Config.cw → Slot Config.cw) (s : State) : (modifySlot k f s).lookups = s.lookups := rfl

@[simp] theorem addSlot_slots (pinI pinQ : PinId) (s : State) : (addSlot pinI pinQ s).slots = s.slots ++ [freshSlot Config.cw pinI pinQ] := rfl
@[simp] theorem addSlot_fsm (pinI pinQ : PinId) (s : State) : (addSlot pinI pinQ s).fsm = s.fsm := rfl
@[simp] theorem addSlot_rateHz (pinI pinQ : PinId) (s : State) : (addSlot pinI pinQ s).rateHz = s.rateHz := rfl
@[simp] theorem addSlot_incr (pinI pinQ : PinId) (s : State) : (addSlot pinI pinQ s).incr = s.incr := rfl
@[simp] theorem addSlot_deadline (pinI pinQ : PinId) (s : State) : (addSlot pinI pinQ s).deadline = s.deadline := rfl
@[simp] theorem addSlot_arrivals (pinI pinQ : PinId) (s : State) : (addSlot pinI pinQ s).arrivals = s.arrivals := rfl
@[simp] theorem addSlot_levels (pinI pinQ : PinId) (s : State) : (addSlot pinI pinQ s).levels = s.levels := rfl
@[simp] theorem addSlot_deadlines (pinI pinQ : PinId) (s : State) : (addSlot pinI pinQ s).deadlines = s.deadlines := rfl
@[simp] theorem addSlot_draws (pinI pinQ : PinId) (s : State) : (addSlot pinI pinQ s).draws = s.draws := rfl
@[simp] theorem addSlot_trace (pinI pinQ : PinId) (s : State) : (addSlot pinI pinQ s).trace = s.trace := rfl
@[simp] theorem addSlot_responses (pinI pinQ : PinId) (s : State) : (addSlot pinI pinQ s).responses = s.responses := rfl
@[simp] theorem addSlot_rdPins (pinI pinQ : PinId) (s : State) : (addSlot pinI pinQ s).rdPins = s.rdPins := rfl
@[simp] theorem addSlot_lookups (pinI pinQ : PinId) (s : State) : (addSlot pinI pinQ s).lookups = s.lookups := rfl

@[simp] theorem advanceDeadline_slots (s : State) : (advanceDeadline s).slots = s.slots := rfl
@[simp] theorem advanceDeadline_fsm (s : State) : (advanceDeadline s).fsm = s.fsm := rfl
@[simp] theorem advanceDeadline_rateHz (s : State) : (advanceDeadline s).rateHz = s.rateHz := rfl
@[simp] theorem advanceDeadline_incr (s : State) : (advanceDeadline s).incr = s.incr := rfl
@[simp] theorem advanceDeadline_deadline (s : State) : (advanceDeadline s).deadline = s.deadline + s.incr := rfl
@[simp] theorem advanceDeadline_arrivals (s : State) : (advanceDeadline s).arrivals = s.arrivals := rfl
@[simp] theorem advanceDeadline_levels (s : State) : (advanceDeadline s).levels = s.levels := rfl
@[simp] theorem advanceDeadline_deadlines (s : State) : (advanceDeadline s).deadlines = s.deadlines := rfl
@[simp] theorem advanceDeadline_draws (s : State) : (advanceDeadline s).draws = s.draws := rfl
@[simp] theorem advanceDeadline_trace (s : State) : (advanceDeadline s).trace = s.trace := rfl
@[simp] theorem advanceDeadline_responses (s : State) : (advanceDeadline s).responses = s.responses := rfl
@[simp] theorem advanceDeadline_rdPins (s : State) : (advanceDeadline s).rdPins = s.rdPins := rfl
@[simp] theorem advanceDeadline_lookups (s : State) : (advanceDeadline s).lookups = s.lookups := rfl

@[simp] theorem loadDeadline_slots (s : State) : (loadDeadline s).slots = s.slots := rfl
@[simp] theorem loadDeadline_fsm (s : State) : (loadDeadline s).fsm = s.fsm := rfl
@[simp] theorem loadDeadline_rateHz (s : State) : (loadDeadline s).rateHz = s.rateHz := rfl
@[simp] theorem loadDeadline_incr (s : State) : (loadDeadline s).incr = s.incr := rfl
@[simp] theorem loadDeadline_deadline (s : State) : (loadDeadline s).deadline = s.firstDeadline := rfl
@[simp] theorem loadDeadline_arrivals (s : State) : (loadDeadline s).arrivals = s.arrivals := rfl
@[simp] theorem loadDeadline_levels (s : State) : (loadDeadline s).levels = s.levels := rfl
@[simp] theorem loadDeadline_deadlines (s : State) : (loadDeadline s).deadlines = s.deadlines.tail := rfl
@[simp] theorem loadDeadline_draws (s : State) : (loadDeadline s).draws = s.draws + 1 := rfl
@[simp] theorem loadDeadline_trace (s : State) : (loadDeadline s).trace = s.trace := rfl
@[simp] theorem loadDeadline_responses (s : State) : (loadDeadline s).responses = s.responses := rfl
@[simp] theorem loadDeadline_rdPins (s : State) : (loadDeadline s).rdPins = s.rdPins := rfl
@[simp] theorem loadDeadline_lookups (s : State) : (loadDeadline s).lookups = s.lookups := rfl

@[simp] theorem lookupEntry_slots (p c : QState) (s : State) : (lookupEntry p c s).slots = s.slots := rfl
@[simp] theorem lookupEntry_fsm (p c : QState) (s : State) : (lookupEntry p c s).fsm = s.fsm := rfl
@[simp] theorem lookupEntry_rateHz (p c : QState) (s : State) : (lookupEntry p c s).rateHz = s.rateHz := rfl
@[simp] theorem lookupEntry_incr (p c : QState) (s : State) : (lookupEntry p c s).incr = s.incr := rfl
@[simp] theorem lookupEntry_deadline (p c : QState) (s : State) : (lookupEntry p c s).deadline = s.deadline := rfl
@[simp] theorem lookupEntry_arrivals (p c : QState) (s : State) : (lookupEntry p c s).arrivals = s.arrivals := rfl
@[simp] theorem lookupEntry_levels (p c : QState) (s : State) : (lookupEntry p c s).levels = s.levels := rfl
@[simp] theorem lookupEntry_deadlines (p c : QState) (s : State) : (lookupEntry p c s).deadlines = s.deadlines := rfl
@[simp] theorem lookupEntry_draws (p c : QState) (s : State) : (lookupEntry p c s).draws = s.draws := rfl
@[simp] theorem lookupEntry_trace (p c : QState) (s : State) : (lookupEntry p c s).trace = s.trace := rfl
@[simp] theorem lookupEntry_responses (p c : QState) (s : State) : (lookupEntry p c s).responses = s.responses := rfl
@[simp] theorem lookupEntry_rdPins (p c : QState) (s : State) : (lookupEntry p c s).rdPins = s.rdPins := rfl
@[simp] theorem lookupEntry_lookups (p c : QState) (s : State) : (lookupEntry p c s).lookups = s.lookups ++ [TT p c] := rfl

@[simp] theorem applyReset_slots (s : State) : (applyReset s).slots = [] := rfl
@[simp] theorem applyReset_fsm (s : State) : (applyReset s).fsm = .idle := rfl
@[simp] theorem applyReset_rateHz (s : State) : (applyReset s).rateHz = Config.defaultRateHz := rfl
@[simp] theorem applyReset_incr (s : State) : (applyReset s).incr = Config.timerIncrement Config.defaultRateHz := rfl
@[simp] theorem applyReset_deadline (s : State) : (applyReset s).deadline = 0#Config.tw := rfl
@[simp] theorem applyReset_arrivals (s : State) : (applyReset s).arrivals = s.arrivals := rfl
@[simp] theorem applyReset_levels (s : State) : (applyReset s).levels = s.levels := rfl
@[simp] theorem applyReset_deadlines (s : State) : (applyReset s).deadlines = s.deadlines := rfl
@[simp] theorem applyReset_draws (s : State) : (applyReset s).draws = s.draws := rfl
@[simp] theorem applyReset_trace (s : State) : (applyReset s).trace = s.trace := rfl
@[simp] theorem applyReset_responses (s : State) : (applyReset s).responses = s.responses := rfl
@[simp] theorem applyReset_rdPins (s : State) : (applyReset s).rdPins = s.rdPins := rfl
@[simp] theorem applyReset_lookups (s : State) : (applyReset s).lookups = s.lookups := rfl

@[simp] theorem readLine_snd_slots (pin : PinId) (s : State) : (readLine pin s).2.slots = s.slots := rfl
@[simp] theorem readLine_snd_fsm (pin : PinId) (s : State) : (readLine pin s).2.fsm = s.fsm := rfl
@[simp] theorem readLine_snd_rateHz (pin : PinId) (s : State) : (readLine pin s).2.rateHz = s.rateHz := rfl
@[simp] theorem readLine_snd_incr (pin : PinId) (s : State) : (readLine pin s).2.incr = s.incr := rfl
@[simp] theorem readLine_snd_deadline (pin : PinId) (s : State) : (readLine pin s).2.deadline = s.deadline := rfl
@[simp] theorem readLine_snd_arrivals (pin : PinId) (s : State) : (readLine pin s).2.arrivals = s.arrivals := rfl
@[simp] theorem readLine_snd_levels (pin : PinId) (s : State) : (readLine pin s).2.levels = s.levels.tail := rfl
@[simp] theorem readLine_snd_deadlines (pin : PinId) (s : State) : (readLine pin s).2.deadlines = s.deadlines := rfl
@[simp] theorem readLine_snd_draws (pin : PinId) (s : State) : (readLine pin s).2.draws = s.draws + 1 := rfl
@[simp] theorem readLine_snd_trace (pin : PinId) (s : State) : (readLine pin s).2.trace = s.trace := rfl
@[simp] theorem readLine_snd_responses (pin : PinId) (s : State) : (readLine pin s).2.responses = s.responses := rfl
@[simp] theorem readLine_snd_rdPins (pin : PinId) (s : State) : (readLine pin s).2.rdPins = s.rdPins ++ [pin] := rfl
@[simp] theorem readLine_snd_lookups (pin : PinId) (s : State) : (readLine pin s).2.lookups = s.lookups := rfl

@[simp] theorem readLine_fst (pin : PinId) (s : State) : (readLine pin s).1 = s.answer 0 pin := rfl

@[simp] theorem freshSlot_pinI (w : Nat) (a b : PinId) : (freshSlot w a b).pinI = a := rfl
@[simp] theorem freshSlot_pinQ (w : Nat) (a b : PinId) : (freshSlot w a b).pinQ = b := rfl
@[simp] theorem freshSlot_state (w : Nat) (a b : PinId) : (freshSlot w a b).state = 0#2 := rfl
@[simp] theorem freshSlot_cnt (w : Nat) (a b : PinId) : (freshSlot w a b).cnt = 0#w := rfl
@[simp] theorem freshSlot_inv (w : Nat) (a b : PinId) : (freshSlot w a b).inv = false := rfl

@[simp] theorem sampleSlot_pinI {w : Nat} (v : Int) (c : QState) (sl : Slot w) :
    (sampleSlot v c sl).pinI = sl.pinI := rfl
@[simp] theorem sampleSlot_pinQ {w : Nat} (v : Int) (c : QState) (sl : Slot w) :
    (sampleSlot v c sl).pinQ = sl.pinQ := rfl
@[simp] theorem sampleSlot_state {w : Nat} (v : Int) (c : QState) (sl : Slot w) :
    (sampleSlot v c sl).state = c := rfl
@[simp] theorem sampleSlot_cnt {w : Nat} (v : Int) (c : QState) (sl : Slot w) :
    (sampleSlot v c sl).cnt = sl.cnt + encInt w (ttLookup v sl.state c) := rfl
@[simp] theorem sampleSlot_inv {w : Nat} (v : Int) (c : QState) (sl : Slot w) :
    (sampleSlot v c sl).inv = (sl.inv || isDiagonal sl.state c) := rfl

end Sys2Proof.Machine
end

