-- ==== Sys2Proof/Laws/Ops.lean ====
section
/-! SUPPORT. What each shared operation does, said once: the slot-addressed operations, the start of the source, one slot's
sampling, and the whole scan in closed form. -/

namespace Sys2Proof.Machine

/-! The table. -/

/-- A quadrature state is one of four. -/
theorem qstate_cases (p : QState) : p = 0#2 ∨ p = 1#2 ∨ p = 2#2 ∨ p = 3#2 := by
  revert p; decide

/-- The lookup, entry by entry, for any sentinel. -/
theorem ttLookup_entries (v : Int) :
    (ttLookup v 0#2 0#2 = 0 ∧ ttLookup v 0#2 1#2 = 1 ∧ ttLookup v 0#2 2#2 = -1 ∧ ttLookup v 0#2 3#2 = v) ∧
    (ttLookup v 1#2 0#2 = -1 ∧ ttLookup v 1#2 1#2 = 0 ∧ ttLookup v 1#2 2#2 = v ∧ ttLookup v 1#2 3#2 = 1) ∧
    (ttLookup v 2#2 0#2 = 1 ∧ ttLookup v 2#2 1#2 = v ∧ ttLookup v 2#2 2#2 = 0 ∧ ttLookup v 2#2 3#2 = -1) ∧
    (ttLookup v 3#2 0#2 = v ∧ ttLookup v 3#2 1#2 = -1 ∧ ttLookup v 3#2 2#2 = 1 ∧ ttLookup v 3#2 3#2 = 0) :=
  ⟨⟨rfl, rfl, rfl, rfl⟩, ⟨rfl, rfl, rfl, rfl⟩, ⟨rfl, rfl, rfl, rfl⟩, ⟨rfl, rfl, rfl, rfl⟩⟩

theorem isDiagonal_eq_true (p c : QState) : isDiagonal p c = true ↔ p ^^^ c = 3#2 := by
  simp [isDiagonal]

/-! Slot-addressed operations. -/

theorem onSlot_attached {k : Nat} {f : Slot Config.cw → State → State} {s : State} {sl : Slot Config.cw}
    (h : s.slots[k]? = some sl) : onSlot k f s = f sl s := by
  simp [onSlot, State.slot, h]

theorem onSlot_free {k : Nat} {f : Slot Config.cw → State → State} {s : State} (h : s.occ ≤ k) :
    onSlot k f s = respond .errSlot 0#32 s := by
  have : s.slots[k]? = none := List.getElem?_eq_none h
  simp [onSlot, State.slot, this]

/-- Everything a slot-addressed operation can do. -/
theorem onSlot_cases (k : Nat) (f : Slot Config.cw → State → State) (s : State) :
    (∃ sl, s.slots[k]? = some sl ∧ onSlot k f s = f sl s) ∨
    (s.occ ≤ k ∧ onSlot k f s = respond .errSlot 0#32 s) := by
  rcases h : s.slots[k]? with _ | sl
  · exact .inr ⟨List.getElem?_eq_none_iff.mp h, onSlot_free (List.getElem?_eq_none_iff.mp h)⟩
  · exact .inl ⟨sl, rfl, onSlot_attached h⟩

/-! The start of the source. -/

theorem startIfIdle_running {s : State} (h : s.fsm = .running) : startIfIdle s = s := by
  simp [startIfIdle, h]

theorem startIfIdle_idle {s : State} (h : s.fsm = .idle) :
    startIfIdle s = { s with
      fsm := .running
      trace := s.trace ++ [.startSource s.incr]
      deadline := s.firstDeadline
      deadlines := s.deadlines.tail
      draws := s.draws + 1 } := by
  simp only [startIfIdle, h]; rfl

theorem freeSlots_eq_zero (s : State) : s.freeSlots = 0 ↔ Config.maxEncoders ≤ s.occ := by
  simp only [State.freeSlots]; omega

/-! Reading lines and scanning. -/

/-- The answers after a read are the answers from the next one on. -/
theorem answer_readLine (pin : PinId) (s : State) (j : Nat) (q : PinId) :
    (readLine pin s).2.answer j q = s.answer (j + 1) q := by
  simp only [State.answer, readLine_snd_levels, readLine_snd_draws]
  rw [show s.draws + 1 + j = s.draws + (j + 1) by omega]
  cases s.levels <;> simp

/-- What sampling an attached slot does. -/
theorem tickSlot_attached {k : Nat} {s : State} {sl : Slot Config.cw} (h : s.slots[k]? = some sl) :
    tickSlot k s = { s with
      slots := s.slots.modify k
        (sampleSlot Config.invalidDelta (pack (s.answer 0 sl.pinI) (s.answer 1 sl.pinQ)))
      levels := s.levels.drop 2
      draws := s.draws + 2
      rdPins := s.rdPins ++ [sl.pinI, sl.pinQ] } := by
  simp only [tickSlot, State.slot, h, readLine_fst, answer_readLine]
  simp [modifySlot, readLine, List.append_assoc, ← List.drop_one]

theorem answer_drop (s t : State) (m j : Nat) (pin : PinId)
    (hl : t.levels = s.levels.drop m) (hd : t.draws = s.draws + m) :
    t.answer j pin = s.answer (m + j) pin := by
  simp only [State.answer, hl, hd, List.getD_eq_getElem?_getD, List.getElem?_drop]
  rw [show s.draws + m + j = s.draws + (m + j) by omega]

theorem take_succ_modify {α : Type} {k : Nat} {l : List α} (hk : k < l.length) (g : α → α) :
    (l.modify k g).take (k + 1) = l.take k ++ [g l[k]] := by
  rw [List.take_modify, List.take_succ_eq_append_getElem hk, List.modify_eq_take_cons_drop (by simp; omega)]
  simp [List.take_take]

/-- The scan from slot `k` on, in closed form: each slot from `k` on is sampled with the two answers that stand at its place,
and nothing else but the platform's answers and the presented identifiers moves on. -/
theorem scan_closed (n k : Nat) (s : State) (h : k + n = s.slots.length) :
    scan n k s = { s with
      slots := s.slots.take k ++ (s.slots.drop k).mapIdx (fun j sl =>
        sampleSlot Config.invalidDelta (pack (s.answer (2 * j) sl.pinI) (s.answer (2 * j + 1) sl.pinQ)) sl)
      levels := s.levels.drop (2 * n)
      draws := s.draws + 2 * n
      rdPins := s.rdPins ++ slotLines (s.slots.drop k) } := by
  induction n generalizing k s with
  | zero =>
    have hd : s.slots.drop k = [] := List.drop_eq_nil_of_le (by omega)
    have ht : s.slots.take k = s.slots := List.take_of_length_le (by omega)
    simp [scan, hd, ht, slotLines]
  | succ n ih =>
    have hk : k < s.slots.length := by omega
    have hget : s.slots[k]? = some s.slots[k] := List.getElem?_eq_getElem hk
    have hdrop : s.slots.drop k = s.slots[k] :: s.slots.drop (k + 1) := List.drop_eq_getElem_cons hk
    have hstep := tickSlot_attached hget
    have hans : ∀ j pin, (tickSlot k s).answer j pin = s.answer (2 + j) pin := fun j pin =>
      answer_drop s _ 2 j pin (by rw [hstep]) (by rw [hstep])
    rw [scan, ih _ _ (by rw [hstep]; simp; omega)]
    simp only [hans]
    rw [hstep]
    simp only [take_succ_modify hk, List.drop_modify_of_lt _ _ _ _ (Nat.lt_succ_self k), hdrop, List.mapIdx_cons,
      slotLines, List.flatMap_cons, List.drop_drop, List.append_assoc, List.cons_append, List.nil_append]
    have h1 : ∀ j, 2 + 2 * j = 2 * (j + 1) := fun j => by omega
    have h2 : ∀ j, 2 + (2 * j + 1) = 2 * (j + 1) + 1 := fun j => by omega
    have h3 : s.draws + 2 + 2 * n = s.draws + 2 * (n + 1) := by omega
    simp only [h1, h2, h3, Nat.mul_zero, Nat.zero_add]

/-- The sample of a slot is unchanged by the advance of the deadline. -/
@[simp] theorem sample_advanceDeadline (s : State) (k : Nat) (sl : Slot Config.cw) :
    (advanceDeadline s).sample k sl = s.sample k sl := rfl

/-- TICK in closed form (R90). -/
theorem tick_closed (s : State) :
    tick s = { s with
      deadline := s.deadline + s.incr
      slots := s.slots.mapIdx fun k sl => sampleSlot Config.invalidDelta (s.sample k sl) sl
      levels := s.levels.drop (2 * s.occ)
      draws := s.draws + 2 * s.occ
      rdPins := s.rdPins ++ slotLines s.slots } := by
  rw [tick, scan_closed _ _ _ (by simp [State.occ])]
  simp [State.occ, advanceDeadline, State.sample, State.answer]

/-- One slot after a TICK. -/
theorem tick_slot (s : State) (k : Nat) :
    (tick s).slots[k]? = (s.slots[k]?).map fun sl => sampleSlot Config.invalidDelta (s.sample k sl) sl := by
  rw [tick_closed]; exact List.getElem?_mapIdx

@[simp] theorem tick_occ (s : State) : (tick s).occ = s.occ := by
  rw [tick_closed]; simp [State.occ]

end Sys2Proof.Machine
end

