-- ==== Sys2Proof/Laws/PerInstr.lean ====
section
/-! SUPPORT. Per instruction: its encoding is one that its row of spec/opcode_table.json matches. -/

namespace Sys2Proof.Laws.EncodeMatchesTable

/-- The encoding of `i` meets its row: (w & mask) = match for a CMD row, the row's bits for the others (R47, R58, R59). -/
def Statement (i : Instr) : Prop :=
  match i with
  | .tick => encode i = .ev 1#1
  | .attach _ _ => ∃ w, encode i = .cmd w ∧ w &&& 0xFF00000000#40 = 0x1000000000#40
  | .setrate _ => ∃ w, encode i = .cmd w ∧ w &&& 0xFF00000000#40 = 0x2000000000#40
  | .getpos _ => ∃ w, encode i = .cmd w ∧ w &&& 0xF0FFFFFFFF#40 = 0x3000000000#40
  | .setpos _ _ => ∃ w, encode i = .cmd w ∧ w &&& 0xF000000000#40 = 0x4000000000#40
  | .getstat _ => ∃ w, encode i = .cmd w ∧ w &&& 0xF0FFFFFFFF#40 = 0x5000000000#40
  | .clrinv _ => ∃ w, encode i = .cmd w ∧ w &&& 0xF0FFFFFFFF#40 = 0x6000000000#40
  | .reserved0 _ => ∃ w, encode i = .cmd w ∧ w &&& 0xF000000000#40 = 0x0000000000#40
  | .reserved7 _ => ∃ w, encode i = .cmd w ∧ w &&& 0xF000000000#40 = 0x7000000000#40
  | .reserved8 _ => ∃ w, encode i = .cmd w ∧ w &&& 0xF000000000#40 = 0x8000000000#40
  | .reserved9 _ => ∃ w, encode i = .cmd w ∧ w &&& 0xF000000000#40 = 0x9000000000#40
  | .reservedA _ => ∃ w, encode i = .cmd w ∧ w &&& 0xF000000000#40 = 0xA000000000#40
  | .reservedB _ => ∃ w, encode i = .cmd w ∧ w &&& 0xF000000000#40 = 0xB000000000#40
  | .reservedC _ => ∃ w, encode i = .cmd w ∧ w &&& 0xF000000000#40 = 0xC000000000#40
  | .reservedD _ => ∃ w, encode i = .cmd w ∧ w &&& 0xF000000000#40 = 0xD000000000#40
  | .reservedE _ => ∃ w, encode i = .cmd w ∧ w &&& 0xF000000000#40 = 0xE000000000#40
  | .reservedF _ => ∃ w, encode i = .cmd w ∧ w &&& 0xF000000000#40 = 0xF000000000#40
  | .tt00 => encode i = .tt 0b0000#4
  | .tt01 => encode i = .tt 0b0001#4
  | .tt02 => encode i = .tt 0b0010#4
  | .tt03 => encode i = .tt 0b0011#4
  | .tt10 => encode i = .tt 0b0100#4
  | .tt11 => encode i = .tt 0b0101#4
  | .tt12 => encode i = .tt 0b0110#4
  | .tt13 => encode i = .tt 0b0111#4
  | .tt20 => encode i = .tt 0b1000#4
  | .tt21 => encode i = .tt 0b1001#4
  | .tt22 => encode i = .tt 0b1010#4
  | .tt23 => encode i = .tt 0b1011#4
  | .tt30 => encode i = .tt 0b1100#4
  | .tt31 => encode i = .tt 0b1101#4
  | .tt32 => encode i = .tt 0b1110#4
  | .tt33 => encode i = .tt 0b1111#4

theorem of_fields {op slot m : BitVec 4} {arg : DataWord} {mask val : CmdWord} {n : DataWord}
    (hm : mask = cmdWord 15#4 m n) (hv : val = cmdWord op (slot &&& m) (arg &&& n)) :
    cmdWord op slot arg &&& mask = val := by
  rw [hm, hv, cmdWord_and, and_fifteen]

theorem of_reserved {op : BitVec 4} {rest : BitVec 36} {val : CmdWord} (hv : val = reservedWord op 0#36) :
    reservedWord op rest &&& 0xF000000000#40 = val := by
  rw [mask_op_rest, hv, reservedWord_and, and_fifteen, BitVec.and_zero]

theorem tick : Statement .tick := rfl
theorem attach (pinI pinQ : PinId) : Statement (.attach pinI pinQ) :=
  ⟨_, rfl, of_fields mask_op_slot (by rw [BitVec.and_zero]; decide)⟩
theorem setrate (hz : Nat) : Statement (.setrate hz) :=
  ⟨_, rfl, of_fields mask_op_slot (by rw [BitVec.and_zero]; decide)⟩
theorem getpos (slot : Nat) : Statement (.getpos slot) :=
  ⟨_, rfl, of_fields mask_op_arg (by rw [BitVec.and_zero]; decide)⟩
theorem setpos (slot : Nat) (value : DataWord) : Statement (.setpos slot value) :=
  ⟨_, rfl, of_fields mask_op (by rw [BitVec.and_zero, BitVec.and_zero]; decide)⟩
theorem getstat (slot : Nat) : Statement (.getstat slot) :=
  ⟨_, rfl, of_fields mask_op_arg (by rw [BitVec.and_zero]; decide)⟩
theorem clrinv (slot : Nat) : Statement (.clrinv slot) :=
  ⟨_, rfl, of_fields mask_op_arg (by rw [BitVec.and_zero]; decide)⟩
theorem reserved0 (rest : BitVec 36) : Statement (.reserved0 rest) := ⟨_, rfl, of_reserved (by decide)⟩
theorem reserved7 (rest : BitVec 36) : Statement (.reserved7 rest) := ⟨_, rfl, of_reserved (by decide)⟩
theorem reserved8 (rest : BitVec 36) : Statement (.reserved8 rest) := ⟨_, rfl, of_reserved (by decide)⟩
theorem reserved9 (rest : BitVec 36) : Statement (.reserved9 rest) := ⟨_, rfl, of_reserved (by decide)⟩
theorem reservedA (rest : BitVec 36) : Statement (.reservedA rest) := ⟨_, rfl, of_reserved (by decide)⟩
theorem reservedB (rest : BitVec 36) : Statement (.reservedB rest) := ⟨_, rfl, of_reserved (by decide)⟩
theorem reservedC (rest : BitVec 36) : Statement (.reservedC rest) := ⟨_, rfl, of_reserved (by decide)⟩
theorem reservedD (rest : BitVec 36) : Statement (.reservedD rest) := ⟨_, rfl, of_reserved (by decide)⟩
theorem reservedE (rest : BitVec 36) : Statement (.reservedE rest) := ⟨_, rfl, of_reserved (by decide)⟩
theorem reservedF (rest : BitVec 36) : Statement (.reservedF rest) := ⟨_, rfl, of_reserved (by decide)⟩
theorem tt00 : Statement .tt00 := rfl
theorem tt01 : Statement .tt01 := rfl
theorem tt02 : Statement .tt02 := rfl
theorem tt03 : Statement .tt03 := rfl
theorem tt10 : Statement .tt10 := rfl
theorem tt11 : Statement .tt11 := rfl
theorem tt12 : Statement .tt12 := rfl
theorem tt13 : Statement .tt13 := rfl
theorem tt20 : Statement .tt20 := rfl
theorem tt21 : Statement .tt21 := rfl
theorem tt22 : Statement .tt22 := rfl
theorem tt23 : Statement .tt23 := rfl
theorem tt30 : Statement .tt30 := rfl
theorem tt31 : Statement .tt31 := rfl
theorem tt32 : Statement .tt32 := rfl
theorem tt33 : Statement .tt33 := rfl

end Sys2Proof.Laws.EncodeMatchesTable
end

