-- ==== Sys2Proof/Laws/Ports.lean ====
section
/-! SUPPORT. The ports: when a TICK is in progress, everything one instant of the inputs can present, and the pulses of the outputs
through the two operations that produce them. -/

namespace Sys2Proof.Machine

@[simp] theorem strobeAgain_arrivals (s : State) : (strobeAgain s).arrivals = .overlappedTick :: s.arrivals.tail := rfl
@[simp] theorem strobeAgain_fsm (s : State) : (strobeAgain s).fsm = s.fsm := rfl

@[simp] theorem cmdReady_reset (s : State) : cmdReady true s = false := rfl
@[simp] theorem cmdReady_noReset (s : State) : cmdReady false s = !tickInProgress s := rfl

@[simp] theorem tickInProgress_tick (s : State) : tickInProgress (tick s) = tickInProgress s := by
  rw [tick_closed]; rfl

theorem strobesTick_cases {a : Arrival} (h : a.strobesTick = true) :
    a = .packet (.ev 1#1) ∨ (∃ w, a = .tickWithCommand w) ∨ a = .overlappedTick := by
  cases a with
  | packet p => cases p <;> simp_all [Arrival.strobesTick]
  | tickWithCommand w => exact .inr (.inl ⟨w, rfl⟩)
  | overlappedTick => exact .inr (.inr rfl)
  | reset => simp [Arrival.strobesTick] at h

theorem tickInProgress_iff (s : State) :
    tickInProgress s = true ↔ s.fsm = .running ∧ ∃ a rest, s.arrivals = a :: rest ∧ a.strobesTick = true := by
  simp only [tickInProgress]
  cases s.fsm <;> rcases s.arrivals with _ | ⟨a, rest⟩ <;> simp

/-- Everything one instant of the ports can present. -/
theorem presentPorts_cases (rst tickPort valid : Bool) (w : CmdWord) (s : State) :
    (rst = false ∧ tickPort = true ∧ tickInProgress s = true ∧ presentPorts rst tickPort valid w s = strobeAgain s) ∨
    ((rst = true ∨ tickPort = false ∨ tickInProgress s = false) ∧
      presentPorts rst tickPort valid w s =
        { s with arrivals := s.arrivals ++ (arrivalOf rst tickPort (commandTaken rst valid s) w).toList }) := by
  cases rst <;> cases tickPort <;> cases h : tickInProgress s <;> simp [presentPorts, h]

theorem requestPulses_emit (e : Event) (s : State) :
    requestPulses (emit e s) = requestPulses s ++ [requestPorts s.trace.length (some e)] := by
  simp [requestPulses, List.mapIdx_append]

theorem responsePulses_snoc {s t : State} {r : Response} (h : t.responses = s.responses ++ [r]) :
    responsePulses t = responsePulses s ++ [⟨true, r.word⟩] := by
  simp [responsePulses, h, List.mapIdx_append, responsePorts]

end Sys2Proof.Machine
end

