-- ==== Sys2Proof/Machine/Listing.lean ====
section
/-! DEFINITION. The written form of operations (R62): the lines of a test vector or program, the words they stand for, what a
line presents to the block, and how lines and responses are printed. -/

namespace Sys2Proof.Machine

/-- One line of R62. -/
inductive Line where
  | attach (pinI pinQ : Nat)
  | setrate (hz : Nat)
  | getpos (slot : Nat)
  /-- The value is a signed or unsigned 32-bit integer. -/
  | setpos (slot : Nat) (value : Int)
  | getstat (slot : Nat)
  | clrinv (slot : Nat)
  /-- One packed sample per attached slot, in slot order. -/
  | tick (samples : List QState)
  /-- A literal command word. -/
  | raw (w : CmdWord)
deriving DecidableEq, Repr

/-- The operands are in the ranges R62 gives. -/
def Line.inRange : Line → Bool
  | .attach pinI pinQ => decide (pinI < 65536 ∧ pinQ < 65536)
  | .setrate hz => rateFits hz
  | .getpos slot => slotFits slot
  | .setpos slot value => slotFits slot && decide (-2147483648 ≤ value ∧ value < 4294967296)
  | .getstat slot => slotFits slot
  | .clrinv slot => slotFits slot
  | .tick _ => true
  | .raw _ => true

/-- The packet of a line (R50 to R54, R59); SETPOS encodes its value as `enc_32(v)` (R62). -/
def Line.packet : Line → Packet
  | .attach pinI pinQ => encode (.attach (BitVec.ofNat 16 pinI) (BitVec.ofNat 16 pinQ))
  | .setrate hz => encode (.setrate hz)
  | .getpos slot => encode (.getpos slot)
  | .setpos slot value => encode (.setpos slot (encInt 32 value))
  | .getstat slot => encode (.getstat slot)
  | .clrinv slot => encode (.clrinv slot)
  | .tick _ => encode .tick
  | .raw w => .cmd w

/-- The level a bit of a sample was read from (R46). -/
def bitLevel (b : Bool) : Level := if b then .high else .low

/-- The two answers behind a packed sample, I before Q (R45, R59). -/
def sampleLevels (c : QState) : List Level := [bitLevel (c.getLsbD 1), bitLevel (c.getLsbD 0)]

/-- The answers to the line reads that a line writes down (R59). -/
def Line.levels : Line → List Level
  | .attach _ _ => []
  | .setrate _ => []
  | .getpos _ => []
  | .setpos _ _ => []
  | .getstat _ => []
  | .clrinv _ => []
  | .tick samples => samples.flatMap sampleLevels
  | .raw _ => []

/-- Presents the lines of a program, in order, after everything already waiting. -/
def present (lines : List Line) (s : State) : State :=
  { s with
    arrivals := s.arrivals ++ lines.map fun l => .packet l.packet
    levels := s.levels ++ lines.flatMap Line.levels }

/-- A packed sample as two binary digits IQ (R62). -/
def sampleText (c : QState) : String :=
  (if c.getLsbD 1 then "1" else "0") ++ (if c.getLsbD 0 then "1" else "0")

/-- A hexadecimal digit. -/
def hexDigit (n : Nat) : String := ["0", "1", "2", "3", "4", "5", "6", "7", "8", "9", "A", "B", "C", "D", "E", "F"].getD n "0"

/-- A 40-bit word as ten hexadecimal digits (R62). -/
def wordText (w : CmdWord) : String :=
  "0x" ++ String.join ((List.range 10).map fun i => hexDigit (w.toNat / 16 ^ (9 - i) % 16))

/-- The text of a line (R62). -/
def Line.text : Line → String
  | .attach pinI pinQ => "ATTACH " ++ toString pinI ++ ", " ++ toString pinQ
  | .setrate hz => "SETRATE " ++ toString hz
  | .getpos slot => "GETPOS " ++ toString slot
  | .setpos slot value => "SETPOS " ++ toString slot ++ ", " ++ toString value
  | .getstat slot => "GETSTAT " ++ toString slot
  | .clrinv slot => "CLRINV " ++ toString slot
  | .tick samples => "TICK " ++ String.intercalate ", " (samples.map sampleText)
  | .raw w => "RAW " ++ wordText w

/-- The name of a status (R56). -/
def Status.text : Status → String
  | .ok => "OK"
  | .errCapacity => "ERR_CAPACITY"
  | .errRate => "ERR_RATE"
  | .errSlot => "ERR_SLOT"
  | .errIllegal => "ERR_ILLEGAL"
  | .causeInvalidTransition => "CAUSE_INVALID_TRANSITION"

/-- A response as `-> STATUS data` (R62). -/
def Response.text (r : Response) : String := "-> " ++ r.status.text ++ " " ++ toString r.data.toNat

end Sys2Proof.Machine
end

