-- ==== Sys2Proof/Tests/Slice0.lean ====
section
/-! SUPPORT. The model's own tests: an ill-formed term for each check of WellFormed, words written out from the encodings of
spec/30_encoding.md, vectors of spec/95_test_vectors.md at the reference configuration where a shared operation can be read at
it, one step per instruction, and for every statement with hypotheses a witness that meets them. -/

namespace Sys2Proof.Tests

open Sys2Proof.Machine

/-! WellFormed: each check refuses an ill-formed term. -/

theorem test_wf_rate_too_wide : (Instr.setrate 4294967296).wf = false := by decide
theorem test_wf_rate_widest : (Instr.setrate 4294967295).wf = true := by decide
theorem test_wf_getpos_slot_16 : (Instr.getpos 16).wf = false := by decide
theorem test_wf_setpos_slot_16 : (Instr.setpos 16 0#32).wf = false := by decide
theorem test_wf_getstat_slot_16 : (Instr.getstat 16).wf = false := by decide
theorem test_wf_clrinv_slot_16 : (Instr.clrinv 16).wf = false := by decide
theorem test_wf_slot_15 : (Instr.getpos 15).wf = true := by decide
theorem test_line_range_setpos : (Line.setpos 1 4294967296).inRange = false ∧ (Line.setpos 1 (-5)).inRange = true := by decide

/-! Decoding: words written out field by field, op slot arg (R49 to R54, R57), and the vectors H1, H3, H5, H14, H17 to H27. -/

/-- The instruction a word decodes to, if it is one. -/
def instrOf (w : CmdWord) : Option Instr :=
  match decode (.cmd w) with
  | .ok i => some i
  | .error _ => none

/-- The name under which a word is rejected, if it is. -/
def rejectOf (p : Packet) : Option Reject :=
  match decode p with
  | .ok _ => none
  | .error r => some r

theorem test_decode_attach :
    instrOf 0b0001000000000000000000100000000000000011#40 = some (.attach 2#16 3#16) := by decide
theorem test_decode_attach_H3 : instrOf 0x10FFFF0000#40 = some (.attach 65535#16 0#16) := by decide
theorem test_decode_setrate :
    instrOf 0b0010000000000000000000000000000011111010#40 = some (.setrate 250) := by decide
theorem test_decode_getpos :
    instrOf 0b0011011100000000000000000000000000000000#40 = some (.getpos 7) := by decide
theorem test_decode_setpos :
    instrOf 0b0100000111111111111111111111111111111011#40 = some (.setpos 1 0xFFFFFFFB#32) := by decide
theorem test_decode_getstat :
    instrOf 0b0101000100000000000000000000000000000000#40 = some (.getstat 1) := by decide
theorem test_decode_clrinv :
    instrOf 0b0110111100000000000000000000000000000000#40 = some (.clrinv 15) := by decide
theorem test_decode_reserved_low :
    instrOf 0x0000000000#40 = some (.reserved0 0#36) ∧ instrOf 0x7000000000#40 = some (.reserved7 0#36) ∧
    instrOf 0x8000000001#40 = some (.reserved8 1#36) ∧ instrOf 0x9000000000#40 = some (.reserved9 0#36) ∧
    instrOf 0xA000000000#40 = some (.reservedA 0#36) := by decide
theorem test_decode_reserved_high :
    instrOf 0xB000000000#40 = some (.reservedB 0#36) ∧ instrOf 0xC000000000#40 = some (.reservedC 0#36) ∧
    instrOf 0xD000000000#40 = some (.reservedD 0#36) ∧ instrOf 0xE000000000#40 = some (.reservedE 0#36) ∧
    instrOf 0xF123456789#40 = some (.reservedF 0x123456789#36) := by decide
theorem test_decode_tick : decodeTableWord 1 1 = some .tick := by decide
theorem test_decode_strobe_low : rejectOf (.ev 0#1) = some .strobeLow := by decide
theorem test_decode_entries_rows_0_1 :
    (List.range 8).map (fun n => decodeTableWord 4 n) =
      [some .tt00, some .tt01, some .tt02, some .tt03, some .tt10, some .tt11, some .tt12, some .tt13] := by decide
theorem test_decode_entries_rows_2_3 :
    (List.range 8).map (fun n => decodeTableWord 4 (n + 8)) =
      [some .tt20, some .tt21, some .tt22, some .tt23, some .tt30, some .tt31, some .tt32, some .tt33] := by decide
theorem test_reject_H24 : rejectOf (.cmd 0x3000000001#40) = some .argNotZero := by decide
theorem test_reject_H25 : rejectOf (.cmd 0x1100000005#40) = some .slotNotZero := by decide
theorem test_reject_H26 : rejectOf (.cmd 0x23000003E8#40) = some .slotNotZero := by decide
theorem test_reject_clrinv : rejectOf (.cmd 0x6000000001#40) = some .argNotZero := by decide

/-! The written form (R62). -/

theorem test_line_attach : (Line.attach 10 11).packet = .cmd 0x10000A000B#40 := by decide
theorem test_line_setpos : (Line.setpos 1 (-5)).packet = .cmd 0x41FFFFFFFB#40 := by decide
theorem test_line_tick : (Line.tick [0b10#2, 0b01#2]).levels = [.high, .low, .low, .high] := by decide
theorem test_ports_tick_first : arrivalOf false true true 0x3000000000#40 = some (.tickWithCommand 0x3000000000#40) := by decide

/-- R61: a tick strobed in Running holds `cmd_ready` at 0; in Idle the strobe starts no TICK (R108). -/
theorem test_cmd_ready :
    cmdReady false { State.reset with fsm := .running, arrivals := [.packet (.ev 1#1)] } = false ∧
    cmdReady false { State.reset with arrivals := [.packet (.ev 1#1)] } = true := ⟨rfl, rfl⟩

/-- R61: the command of an instant within a TICK is not taken. -/
theorem test_command_waits_for_tick :
    (presentPorts false false true 0x3000000000#40
      { State.reset with fsm := .running, arrivals := [.packet (.ev 1#1)] }).arrivals = [.packet (.ev 1#1)] := rfl

/-- R55, R61: a response pulse with `rsp_valid` 1. -/
theorem test_rsp_port : responsePorts 0 (some ⟨.ok, 4#32⟩) = ⟨true, 0x000000004#35⟩ := by decide
theorem test_response_word : (Response.mk .errIllegal 7#32).word = 0x400000007#35 := by decide

/-! The table at REF's sentinel, T0 to T15, and the tick vectors K1 to K12 at REF's counter width. -/

theorem test_table_ref :
    (List.range 16).map (fun n => ttLookup 65536 (BitVec.ofNat 2 (n / 4)) (BitVec.ofNat 2 (n % 4))) =
      [0, 1, -1, 65536, -1, 0, 65536, 1, 1, 65536, 0, -1, 65536, -1, 1, 0] := by decide

/-- A REF slot sampled once: state, counter and flag after. -/
def refSample (state : QState) (cnt : BitVec 32) (inv : Bool) (c : QState) : QState × BitVec 32 × Bool :=
  let sl := sampleSlot 65536 c { pinI := 2#16, pinQ := 3#16, state := state, cnt := cnt, inv := inv }
  (sl.state, sl.cnt, sl.inv)

theorem test_tick_K1_to_K4 :
    refSample 1 7 false 0b01 = (1, 7, false) ∧ refSample 1 7 false 0b11 = (3, 8, false) ∧
    refSample 1 7 false 0b00 = (0, 6, false) ∧ refSample 1 7 false 0b10 = (2, 0x00010007, true) := by decide
theorem test_tick_K5_to_K8 :
    refSample 0 0 false 0b10 = (2, 0xFFFFFFFF, false) ∧ refSample 2 0x7FFFFFFF false 0b00 = (0, 0x80000000, false) ∧
    refSample 3 0x80000000 false 0b01 = (1, 0x7FFFFFFF, false) ∧
    refSample 0 0x7FFF0000 false 0b11 = (3, 0x80000000, true) := by decide
theorem test_tick_K9_to_K12 :
    refSample 3 0x00010000 true 0b10 = (2, 0x00010001, true) ∧ refSample 3 0x00010000 true 0b00 = (0, 0x00020000, true) ∧
    refSample 0 0 false 0b00 = (0, 0, false) ∧ refSample 0 0 false 0b11 = (3, 0x00010000, true) := by decide
/-- H16: at CW = 16 the upper bits of a value are dropped, and a read sign-extends. -/
theorem test_setpos_getpos_H16 : cntData (dataCnt 16 0x12348000#32) = 0xFFFF8000#32 := by decide
/-- H17. -/
theorem test_getstat_H17 :
    statData { pinI := 2#16, pinQ := 3#16, state := 3#2, cnt := 0#32, inv := true } = 7#32 := by decide

/-! One step per instruction, on small states. -/

/-- A slot on the lines 2 and 3 with the stored state 1. -/
def oneSlot : Slot Config.cw := { pinI := 2#16, pinQ := 3#16, state := 1#2, cnt := 7#Config.cw, inv := true }

/-- Running with one attached slot; the next two reads answer high, high. -/
def running : State := { State.reset with slots := [oneSlot], fsm := .running, levels := [.high, .high] }

/-- Running, with a TICK in progress. -/
def ticking : State := { running with arrivals := [.packet (.ev 1#1)] }

/-- Running with every slot attached. -/
def full : State := { running with slots := List.replicate Config.maxEncoders oneSlot }

/-- The state an outcome goes on in. -/
def after (o : Host.Outcome State Fault Refusal) : Option State :=
  match o with
  | .next t => some t
  | .fault _ => none
  | .refused _ => none

/-- The status of the last response. -/
def lastStatus (o : Host.Outcome State Fault Refusal) : Option Status := (after o).bind fun t => t.responses.getLast?.map (·.status)

theorem test_step_attach_first :
    (after (step (State.reset.withFetchWord 40 0x1000020003))).map (fun t => (t.occ, t.fsm, configuredLines t.trace)) =
      some (1, .running, [2#16, 3#16]) := by decide
theorem test_step_attach_response :
    ((after (step (State.reset.withFetchWord 40 0x1000020003))).map fun t => t.responses) = some [⟨.ok, 0#32⟩] := by decide
theorem test_step_setrate_H10 : lastStatus (step (State.reset.withFetchWord 40 0x20FFFFFFFF)) = some .errRate := by decide
theorem test_step_setrate_H11 :
    ((after (step (State.reset.withFetchWord 40 0x20000003E8))).map fun t => (t.rateHz, t.responses)) =
      some (1000, [⟨.ok, 1000#32⟩]) := by decide
theorem test_step_getpos_idle : lastStatus (step (State.reset.withFetchWord 40 0x3000000000)) = some .errSlot := by decide
theorem test_step_getpos : lastStatus (step (running.withFetchWord 40 0x3000000000)) = some .ok := by decide
theorem test_step_setpos_H20 : lastStatus (step (running.withFetchWord 40 0x4F00000001)) = some .errSlot := by decide
theorem test_step_getstat :
    ((after (step (running.withFetchWord 40 0x5000000000))).map fun t => t.responses) = some [⟨.ok, 5#32⟩] := by decide
theorem test_step_clrinv :
    ((after (step (running.withFetchWord 40 0x6000000000))).map fun t => t.slots.map (·.inv)) = some [false] := by decide
theorem test_step_reserved : lastStatus (step (running.withFetchWord 40 0xF123456789)) = some .errIllegal := by decide
theorem test_step_illegal_H27 : lastStatus (step (State.reset.withFetchWord 40 0x3F00000001)) = some .errIllegal := by decide
theorem test_step_tick :
    ((after (step (running.withFetchWord 1 1))).map fun t => (t.slots.map (·.state), t.rdPins, t.levels)) =
      some ([3#2], [2#16, 3#16], []) := by decide
theorem test_step_tick_idle_K17 :
    ((after (step (State.reset.withFetchWord 1 1))).map fun t => (t.fsm, t.rdPins, t.arrivals)) = some (.idle, [], []) := by decide
theorem test_step_entry :
    ((after (step (State.reset.withFetchWord 4 7))).map fun t => t.lookups) = some [1] := by decide

/-! Witnesses: every statement with hypotheses has a state and operands that meet all of them. -/

theorem occ_full : full.occ = Config.maxEncoders := by simp [full, State.occ]

theorem idle_free : State.reset.occ < Config.maxEncoders := Config.maxEncoders_pos

theorem witness_ConfigurationIsWellFormed : (250 ≤ 250 ∧ 250 ≤ 20000) ∧ (250 ≤ 20000 ∧ 20000 ≤ 20000) := by decide

theorem witness_CommandWordsDecodeByFields_commands :
    [0x1000020003#40, 0x1F00020003#40, 0x20FFFFFFFF#40, 0x2100000000#40, 0x3F00000000#40, 0x3000000001#40, 0x4FFFFFFFFF#40,
      0x5000000000#40, 0x5080000000#40, 0x6F00000000#40, 0x6000000001#40].map (fun w : CmdWord => w.toNat / 2 ^ 36) =
      [1, 1, 2, 2, 3, 3, 4, 5, 5, 6, 6] := by decide

theorem witness_CommandWordsDecodeByFields_reserved :
    [0x0FFFFFFFFF#40, 0x7000000000#40, 0x8000000000#40, 0x9000000000#40, 0xA000000000#40, 0xB000000000#40, 0xC000000000#40,
      0xD000000000#40, 0xE000000000#40, 0xFFFFFFFFFF#40].map (fun w : CmdWord => w.toNat / 2 ^ 36) =
      [0, 7, 8, 9, 10, 11, 12, 13, 14, 15] := by decide

theorem witness_DecodeOfEncodeIsIdentity : (Instr.setpos 15 0xFFFFFFFF#32).wf = true ∧ (Instr.setrate 4294967295).wf = true := by decide

theorem witness_EncodeOfDecodeIsIdentity : decode (.cmd 0x4FFFFFFFFF#40) = .ok (.setpos 15 0xFFFFFFFF#32) := by rfl

theorem witness_PairClassDecidesValue :
    (2#2 ^^^ 2#2 = 0#2) ∧ (3#2 ^^^ 2#2 = 1#2) ∧ (1#2 ^^^ 3#2 = 2#2) ∧ (0#2 ^^^ 3#2 = 3#2) := by decide

theorem witness_TableClosedFormAndSymmetries : (0#2 ^^^ 1#2 ≠ 3#2) ∧ (1#2 ^^^ 2#2 = 3#2) ∧ (0#2 ^^^ 1#2 = 1#2) ∧ (0#2 ^^^ 2#2 = 2#2) := by
  decide

/-- Running, for TickAdvancesDeadlineByIncrement, TickReadsLinesInSlotOrder and DeadlineAccumulatesIncrements. -/
theorem witness_running : running.fsm = .running := rfl

theorem witness_TickUpdatesEveryAttachedSlot : running.fsm = .running ∧ running.slots[0]? = some oneSlot := ⟨rfl, rfl⟩

/-- For TickCounterWrapsInSignedTerms and TickFrame: a TICK that goes on, with the slot before and after. -/
theorem witness_TickCounterWrapsInSignedTerms :
    ∃ t b, running.fsm = .running ∧ exec .tick running = .next t ∧ running.slots[0]? = some oneSlot ∧
      t.slots[0]? = some b ∧ b.state = 3#2 :=
  ⟨tick running, _, rfl, rfl, rfl, rfl, rfl⟩

/-- The same slot stored as 0, so that the sample 3 is diagonal. -/
def diagonalAhead : State := { running with slots := [{ oneSlot with state := 0#2 }] }

theorem witness_TickSetsInvOnDiagonalOnly :
    (∃ t b, exec .tick running = .next t ∧ t.slots[0]? = some b ∧ oneSlot.state ^^^ b.state ≠ 3#2) ∧
    (∃ t b, exec .tick diagonalAhead = .next t ∧ t.slots[0]? = some b ∧ (0#2 : QState) ^^^ b.state = 3#2) :=
  ⟨⟨tick running, _, rfl, rfl, by decide⟩, ⟨tick diagonalAhead, _, rfl, rfl, by decide⟩⟩

theorem witness_TickFrame : ∃ t, exec .tick running = .next t := ⟨tick running, rfl⟩

/-- Two states that share slot 0 and its answers and differ in slot 1. -/
theorem witness_TickSlotsAreIndependent :
    ∃ u s' u' : State, u.fsm = .running ∧ exec .tick running = .next s' ∧ exec .tick u = .next u' ∧
      running.slots[0]? = some oneSlot ∧ u.slots[0]? = some oneSlot ∧ u.slots ≠ running.slots ∧
      running.answer (2 * 0) oneSlot.pinI = u.answer (2 * 0) oneSlot.pinI ∧
      running.answer (2 * 0 + 1) oneSlot.pinQ = u.answer (2 * 0 + 1) oneSlot.pinQ ∧
      running.deadline = u.deadline ∧ running.incr = u.incr :=
  ⟨{ running with slots := [oneSlot, oneSlot] }, tick running, tick { running with slots := [oneSlot, oneSlot] },
    rfl, rfl, rfl, rfl, rfl, by simp [running], rfl, rfl, rfl, rfl⟩

theorem witness_TickInIdleIsIgnored :
    ∃ s : State, s.fsm = .idle ∧ s.arrivals = .packet (.ev 1#1) :: [] :=
  ⟨{ State.reset with arrivals := [.packet (.ev 1#1)] }, rfl, rfl⟩

/-- A TICK reading 11 and one reading 10, with a SETPOS of another slot between. -/
theorem witness_ExactCountingWithoutDiagonals :
    ∃ (is : List Instr) (s : State), s.slots[0]? = some oneSlot ∧ (∀ i ∈ is, leavesSlot 0 i) ∧
      samplesOf 0 is s = [3#2, 2#2] ∧ diagonalSteps oneSlot.state (samplesOf 0 is s) = 0 :=
  ⟨[.tick, .setpos 1 0#32, .tick], { running with levels := [.high, .high, .high, .low] }, rfl,
    by simp [leavesSlot], by rfl, by rfl⟩

theorem witness_EachDiagonalAddsTheSentinelOnce :
    ∃ (is : List Instr) (s : State), s.slots[0]? = some oneSlot ∧ (∀ i ∈ is, leavesSlot 0 i) ∧
      diagonalSteps oneSlot.state (samplesOf 0 is s) = 1 :=
  ⟨[.tick], { running with levels := [.high, .low] }, rfl, by simp [leavesSlot], by rfl⟩

theorem witness_ForwardLineCyclesCountFourEach :
    ∃ (is : List Instr) (s : State), s.slots[0]? = some oneSlot ∧ (∀ i ∈ is, leavesSlot 0 i) ∧
      samplesOf 0 is s = (List.replicate 1 (forwardCycle oneSlot.state)).flatten :=
  ⟨[.tick, .tick, .tick, .tick],
    { running with levels := [.high, .high, .high, .low, .low, .low, .low, .high] }, rfl, by simp [leavesSlot], by rfl⟩

/-- Both clauses of AttachFillsTheNextSlot: Idle after reset, and Running with no slot (a state no run reaches, so that every
capacity has a free slot). -/
theorem witness_AttachFillsTheNextSlot :
    (State.reset.occ < Config.maxEncoders ∧ State.reset.fsm = .idle) ∧
    (∃ s : State, s.occ < Config.maxEncoders ∧ s.fsm = .running) :=
  ⟨⟨idle_free, rfl⟩, ⟨{ State.reset with fsm := .running }, idle_free, rfl⟩⟩

theorem witness_AttachBeyondCapacityIsNoOp : Config.maxEncoders ≤ full.occ := Nat.le_of_eq occ_full.symm

theorem reset_inv : State.reset.Inv where
  occ_le := Nat.zero_le _
  running_iff := by decide
  rate_ok := by
    have := Config.rawDefaultRate.isLt
    show 250 ≤ Config.defaultRateHz ∧ Config.defaultRateHz ≤ 20000
    unfold Config.defaultRateHz
    omega
  incr_eq := rfl
  responses_ok := by intro r hr; cases hr

theorem witness_FirstAttachAlwaysSucceeds : State.reset.Inv ∧ State.reset.fsm = .idle := ⟨reset_inv, rfl⟩

theorem witness_OnlyResetLeavesRunning :
    ∃ s t : State, step s = .next t ∧ s.arrivals.head? ≠ some .reset ∧ s.fsm = .running :=
  ⟨running, running, rfl, by decide, rfl⟩

theorem witness_SourceStartsExactlyOnTheTransition :
    ∃ t, exec (.attach 2#16 3#16) State.reset = .next t ∧ t.fsm ≠ State.reset.fsm :=
  ⟨_, rfl, by decide⟩

theorem witness_FirstTickAfterAttach :
    ∀ i q : Level, ∃ s t : State, s.occ < Config.maxEncoders ∧ exec (.attach 2#16 3#16) s = .next t ∧
      t.answer (2 * s.occ) 2#16 = i ∧ t.answer (2 * s.occ + 1) 3#16 = q :=
  fun i q => ⟨{ State.reset with levels := [i, q] }, _, idle_free, rfl, rfl, rfl⟩

theorem witness_SetrateAcceptsRatesInRange : (250 ≤ 250 ∧ 250 ≤ 20000) ∧ (250 ≤ 20000 ∧ 20000 ≤ 20000) := by decide
theorem witness_SetrateRejectsRatesOutOfRange : (249 < 250 ∨ 20000 < 249) ∧ (20001 < 250 ∨ 20000 < 20001) := by decide
theorem witness_NewIncrementCountsFromTheNextTick : running.fsm = .running ∧ 250 ≤ 20000 ∧ 20000 ≤ 20000 := ⟨rfl, by decide, by decide⟩

/-- An attached slot, for GetposReturnsTheCounter, SetposAssignsTheCounter, GetstatReturnsFlagAndState, ClrinvClearsTheFlag. -/
theorem witness_attached_slot : running.slots[0]? = some oneSlot := rfl

theorem witness_SetposThenGetposReadsBack :
    0 < running.occ ∧ -(2 ^ (Config.cw - 1)) ≤ (0 : Int) ∧ (0 : Int) < 2 ^ (Config.cw - 1) :=
  ⟨by decide, by simp, by positivity⟩

/-- The first slot index that is not attached, in Running and in Idle. -/
theorem witness_BadSlotIsRefused : running.occ ≤ 1 ∧ State.reset.occ ≤ 0 := by decide

/-- Each clause of IllegalWordsAreAnswered: a reserved opcode at both ends, and the must-be-zero fields. -/
theorem witness_IllegalWordsAreAnswered :
    IllegalWord 0x0FFFFFFFFF#40 ∧ IllegalWord 0x7000000000#40 ∧ IllegalWord 0xFFFFFFFFFF#40 ∧
    IllegalWord 0x1100000000#40 ∧ IllegalWord 0x2F00000000#40 ∧ IllegalWord 0x3000000001#40 ∧
    IllegalWord 0x5080000000#40 ∧ IllegalWord 0x6000000001#40 ∧ ¬ IllegalWord 0x4FFFFFFFFF#40 ∧
    ¬ IllegalWord 0x10FFFFFFFF#40 ∧ ¬ IllegalWord 0x6F00000000#40 := by
  simp [IllegalWord]

theorem witness_IllegalWordsAreAnswered_state (w : CmdWord) :
    ∃ s : State, s.arrivals = .packet (.cmd w) :: [] := ⟨{ running with arrivals := [.packet (.cmd w)] }, rfl⟩

theorem witness_EveryCommandRespondsOnce : isCommand (.getpos 0) = true ∧ isCommand .tick = false ∧ isCommand .tt12 = false := by decide

/-- A TICK changes the slot, the state and the deadline's owner; an accepted SETRATE the rate. -/
theorem witness_OnlyTheNamedOperationsWrite :
    (∃ t, exec .tick running = .next t ∧ running.slots[0]? = some oneSlot) ∧
    (∃ t, exec (.attach 2#16 3#16) State.reset = .next t ∧ t.occ ≠ State.reset.occ) :=
  ⟨⟨tick running, rfl, rfl⟩, ⟨_, rfl, by decide⟩⟩

theorem witness_InvFlagInfluencesNothingElse :
    ∃ (s' : State) (others : List (Slot Config.cw)), (∀ k, Instr.tick ≠ .getstat k) ∧
      sameButInv running.slots others ∧ others ≠ running.slots ∧ exec .tick running = .next s' :=
  ⟨tick running, [{ oneSlot with inv := false }], by simp, rfl, by simp [running, oneSlot], rfl⟩

theorem witness_StepStopsOnlyOnOverlappedTick :
    ∃ s : State, s.arrivals.head? = some .overlappedTick ∧ s.fsm = .running ∧ step s = .fault .tickDuringTick :=
  ⟨{ running with arrivals := [.overlappedTick] }, rfl, rfl, rfl⟩

theorem witness_StepRunsTheDecodedInstruction :
    ∃ s : State, s.arrivals = .packet (.cmd 0x3000000000#40) :: [] ∧ decode (.cmd 0x3000000000#40) = .ok (.getpos 0) :=
  ⟨{ running with arrivals := [.packet (.cmd 0x3000000000#40)] }, rfl, rfl⟩

theorem witness_TickBeforeSimultaneousCommand :
    ∃ s : State, s.fsm = .running ∧ s.arrivals = .tickWithCommand 0x3000000000#40 :: [] :=
  ⟨{ running with arrivals := [.tickWithCommand 0x3000000000#40] }, rfl, rfl⟩

theorem witness_NothingPresentedNothingDone : running.arrivals = [] := rfl

theorem witness_ResetDiscardsEverything : ∃ s : State, s.fsm = .running ∧ s.arrivals = .reset :: [] :=
  ⟨{ running with arrivals := [.reset] }, rfl, rfl⟩

theorem witness_StepKeepsTheInvariants : ∃ s t : State, s.Inv ∧ step s = .next t := ⟨State.reset, State.reset, reset_inv, rfl⟩

/-- An ATTACH presented after reset. -/
theorem witness_StepKeepsLinesConfigured :
    ∃ s t : State, s.LinesConfigured ∧ step s = .next t ∧ t.occ = 1 :=
  ⟨State.reset.withFetchWord 40 0x1000020003, _, ⟨[], rfl⟩, rfl, rfl⟩

theorem witness_HandlesStayValidUntilReset :
    ∃ s t : State, step s = .next t ∧ s.arrivals.head? ≠ some .reset ∧ s.slots[0]? = some oneSlot :=
  ⟨running.withFetchWord 1 1, tick running, rfl, by decide, rfl⟩

/-- Each hypothesis of PortsSerialiseCommandsAgainstTicks: a command held off by a TICK, one held off by reset, one not valid, one
taken, a TICK in progress that is not overlapped, and Running with nothing waiting. -/
theorem witness_PortsSerialiseCommandsAgainstTicks :
    (tickInProgress ticking = true ∧ ticking.arrivals.head? ≠ some .overlappedTick ∧ (true && cmdReady false ticking) = false) ∧
    (true && cmdReady true running) = false ∧ (false && cmdReady false running) = false ∧
    (true && cmdReady false running) = true ∧ (true && cmdReady false State.reset) = true ∧
    running.fsm = .running ∧ running.arrivals = [] := by
  refine ⟨⟨rfl, by decide, rfl⟩, rfl, rfl, rfl, rfl, rfl, rfl⟩

/-- A command, a TICK and a lookup, each with the state it answers. -/
theorem witness_PortsPulseOncePerResponseAndRequest :
    (isCommand (.getpos 0) = true ∧ ∃ t, exec (.getpos 0) running = .next t) ∧
    (isCommand .tick = false ∧ ∃ t, exec .tick running = .next t) ∧
    (isCommand .tt12 = false ∧ ∃ t, exec .tt12 running = .next t) :=
  ⟨⟨rfl, _, rfl⟩, ⟨rfl, _, rfl⟩, ⟨rfl, _, rfl⟩⟩

end Sys2Proof.Tests
end

section
/-! The configuration of spec/00_scope.md section 5: the parameters of `Sys2Proof.Config` meet the bounds of R4. -/

namespace Sys2Proof.Config

theorem defaultRateHz_range : 250 ≤ defaultRateHz ∧ defaultRateHz ≤ 20000 := by
  have hraw := rawDefaultRate.isLt
  unfold defaultRateHz
  omega

theorem timerIncrement_range (hz : Nat) :
    1 ≤ (timerIncrement hz).toNat ∧ (timerIncrement hz).toNat ≤ 2 ^ tw - 1 :=
  increment_range tw_pos (rawTimerIncrement hz)

/-- Settles O1: one range lemma for each parameter; the increment is in range at every rate, so at the rates of R5. -/
theorem configurationIsWellFormed : Obligations.ConfigurationIsWellFormed := by
  unfold Obligations.ConfigurationIsWellFormed
  refine ⟨?capacity, ?counterWidth, ?timerWidth, ?sentinelRange, ?sentinelNotSmall, ?rate, ?timerIncrement⟩
  case capacity => exact ⟨maxEncoders_pos, rawMaxEncoders.isLt⟩
  case counterWidth => exact ⟨cw_ge_two, cw_le⟩
  case timerWidth => exact tw_pos
  case sentinelRange => exact sentinel_range cw rawInvalid
  case sentinelNotSmall => exact sentinel_not_small cw_ge_two rawInvalid
  case rate => exact defaultRateHz_range
  case timerIncrement => exact fun hz _ _ => timerIncrement_range hz

end Sys2Proof.Config
end

section
/-! What one instruction can do to the state, said once: the kinds of instruction, the state each of them answers, and the registers
that the two composite operations, the start of the source and TICK, leave as they were. -/

namespace Sys2Proof.Machine

/-! The registers under the start of the source and under TICK. -/

@[simp] theorem startIfIdle_fsm (s : State) : (startIfIdle s).fsm = .running := by
  cases h : s.fsm with
  | idle => rw [startIfIdle_idle h]
  | running => rw [startIfIdle_running h, h]

/-- What the start of the source leaves as it was (R107). -/
theorem startIfIdle_frame (s : State) :
    (startIfIdle s).slots = s.slots ∧ (startIfIdle s).rateHz = s.rateHz ∧ (startIfIdle s).incr = s.incr ∧
      (startIfIdle s).responses = s.responses := by
  cases h : s.fsm with
  | idle => simp [startIfIdle_idle h]
  | running => simp [startIfIdle_running h]

@[simp] theorem startIfIdle_slots (s : State) : (startIfIdle s).slots = s.slots :=
  have ⟨h, _⟩ := startIfIdle_frame s; h
@[simp] theorem startIfIdle_rateHz (s : State) : (startIfIdle s).rateHz = s.rateHz :=
  have ⟨_, h, _⟩ := startIfIdle_frame s; h
@[simp] theorem startIfIdle_incr (s : State) : (startIfIdle s).incr = s.incr :=
  have ⟨_, _, h, _⟩ := startIfIdle_frame s; h
@[simp] theorem startIfIdle_responses (s : State) : (startIfIdle s).responses = s.responses :=
  have ⟨_, _, _, h⟩ := startIfIdle_frame s; h

@[simp] theorem tick_fsm (s : State) : (tick s).fsm = s.fsm := by rw [tick_closed]
@[simp] theorem tick_rateHz (s : State) : (tick s).rateHz = s.rateHz := by rw [tick_closed]
@[simp] theorem tick_incr (s : State) : (tick s).incr = s.incr := by rw [tick_closed]
@[simp] theorem tick_trace (s : State) : (tick s).trace = s.trace := by rw [tick_closed]
@[simp] theorem tick_responses (s : State) : (tick s).responses = s.responses := by rw [tick_closed]

/-! The kinds of instruction. -/

/-- TICK, the six commands, and the two families whose members all mean the same: the reserved opcodes (R124) and the table
entries (R65). -/
inductive InstrKind : Instr → Prop
  | tick : InstrKind .tick
  | attach (pinI pinQ : PinId) : InstrKind (.attach pinI pinQ)
  | setrate (hz : Nat) : InstrKind (.setrate hz)
  | getpos (slot : Nat) : InstrKind (.getpos slot)
  | setpos (slot : Nat) (value : DataWord) : InstrKind (.setpos slot value)
  | getstat (slot : Nat) : InstrKind (.getstat slot)
  | clrinv (slot : Nat) : InstrKind (.clrinv slot)
  | reserved {i : Instr} (hcmd : isCommand i = true)
      (hexec : ∀ s, exec i s = .next (respond .errIllegal 0#32 s)) : InstrKind i
  | entry {i : Instr} (p c : QState) (hcmd : isCommand i = false)
      (hexec : ∀ s, exec i s = .next (lookupEntry p c s)) : InstrKind i

theorem instrKind : ∀ i : Instr, InstrKind i
  | .tick => .tick
  | .attach pinI pinQ => .attach pinI pinQ
  | .setrate hz => .setrate hz
  | .getpos slot => .getpos slot
  | .setpos slot value => .setpos slot value
  | .getstat slot => .getstat slot
  | .clrinv slot => .clrinv slot
  | .reserved0 _ => .reserved rfl fun _ => rfl
  | .reserved7 _ => .reserved rfl fun _ => rfl
  | .reserved8 _ => .reserved rfl fun _ => rfl
  | .reserved9 _ => .reserved rfl fun _ => rfl
  | .reservedA _ => .reserved rfl fun _ => rfl
  | .reservedB _ => .reserved rfl fun _ => rfl
  | .reservedC _ => .reserved rfl fun _ => rfl
  | .reservedD _ => .reserved rfl fun _ => rfl
  | .reservedE _ => .reserved rfl fun _ => rfl
  | .reservedF _ => .reserved rfl fun _ => rfl
  | .tt00 => .entry 0#2 0#2 rfl fun _ => rfl
  | .tt01 => .entry 0#2 1#2 rfl fun _ => rfl
  | .tt02 => .entry 0#2 2#2 rfl fun _ => rfl
  | .tt03 => .entry 0#2 3#2 rfl fun _ => rfl
  | .tt10 => .entry 1#2 0#2 rfl fun _ => rfl
  | .tt11 => .entry 1#2 1#2 rfl fun _ => rfl
  | .tt12 => .entry 1#2 2#2 rfl fun _ => rfl
  | .tt13 => .entry 1#2 3#2 rfl fun _ => rfl
  | .tt20 => .entry 2#2 0#2 rfl fun _ => rfl
  | .tt21 => .entry 2#2 1#2 rfl fun _ => rfl
  | .tt22 => .entry 2#2 2#2 rfl fun _ => rfl
  | .tt23 => .entry 2#2 3#2 rfl fun _ => rfl
  | .tt30 => .entry 3#2 0#2 rfl fun _ => rfl
  | .tt31 => .entry 3#2 1#2 rfl fun _ => rfl
  | .tt32 => .entry 3#2 2#2 rfl fun _ => rfl
  | .tt33 => .entry 3#2 3#2 rfl fun _ => rfl

/-! The meanings, case by case. -/

theorem exec_tick_idle {s : State} (h : s.fsm = .idle) : exec .tick s = .next s := by
  simp [exec, execTick, h]

theorem exec_tick_running {s : State} (h : s.fsm = .running) : exec .tick s = .next (tick s) := by
  simp [exec, execTick, h]

/-- The registry after a successful ATTACH: the lines configured, the slot filled, the source started if it was not (R116). -/
def attachSlot (pinI pinQ : PinId) (s : State) : State :=
  startIfIdle (addSlot pinI pinQ (emit (.configureInput pinQ) (emit (.configureInput pinI) s)))

@[simp] theorem attachSlot_slots (pinI pinQ : PinId) (s : State) :
    (attachSlot pinI pinQ s).slots = s.slots ++ [freshSlot Config.cw pinI pinQ] := startIfIdle_slots _
@[simp] theorem attachSlot_fsm (pinI pinQ : PinId) (s : State) : (attachSlot pinI pinQ s).fsm = .running := startIfIdle_fsm _
@[simp] theorem attachSlot_rateHz (pinI pinQ : PinId) (s : State) : (attachSlot pinI pinQ s).rateHz = s.rateHz :=
  startIfIdle_rateHz _
@[simp] theorem attachSlot_incr (pinI pinQ : PinId) (s : State) : (attachSlot pinI pinQ s).incr = s.incr := startIfIdle_incr _
@[simp] theorem attachSlot_responses (pinI pinQ : PinId) (s : State) : (attachSlot pinI pinQ s).responses = s.responses :=
  startIfIdle_responses _

theorem attachSlot_deadline_of_running {pinI pinQ : PinId} {s : State} (h : s.fsm = .running) :
    (attachSlot pinI pinQ s).deadline = s.deadline := by
  rw [attachSlot, startIfIdle_running (by simpa using h)]
  simp

theorem exec_attach_full {pinI pinQ : PinId} {s : State} (h : Config.maxEncoders ≤ s.occ) :
    exec (.attach pinI pinQ) s = .next (respond .errCapacity 0#32 s) := by
  simp [exec, execAttach, (freeSlots_eq_zero s).mpr h]

theorem exec_attach_free {pinI pinQ : PinId} {s : State} (h : s.occ < Config.maxEncoders) :
    exec (.attach pinI pinQ) s = .next (respond .ok (natData s.occ) (attachSlot pinI pinQ s)) := by
  simp [exec, execAttach, attachSlot, (freeSlots_eq_zero s).not.mpr (by omega)]

theorem exec_setrate_accepted {hz : Nat} {s : State} (h : Config.RateOk hz) :
    exec (.setrate hz) s = .next (respond .ok (natData hz) { s with rateHz := hz, incr := Config.timerIncrement hz }) := by
  simp [exec, execSetrate, h]

theorem exec_setrate_rejected {hz : Nat} {s : State} (h : ¬ Config.RateOk hz) :
    exec (.setrate hz) s = .next (respond .errRate 0#32 s) := by
  simp [exec, execSetrate, h]

/-- What one instruction can do, from the state `s`. -/
inductive ExecEffect (s : State) : Instr → State → Prop
  /-- A command that answers and does nothing else: the reads, and every refusal (R115). -/
  | answered {i : Instr} (st : Status) (d : DataWord) (hcmd : isCommand i = true) (hadm : (Response.mk st d).Admissible) :
      ExecEffect s i (respond st d s)
  | lookedUp {i : Instr} (p c : QState) (hcmd : isCommand i = false) : ExecEffect s i (lookupEntry p c s)
  | ignoredTick (hidle : s.fsm = .idle) : ExecEffect s .tick s
  | ticked (hrun : s.fsm = .running) : ExecEffect s .tick (tick s)
  | attached (pinI pinQ : PinId) (hfree : s.occ < Config.maxEncoders) :
      ExecEffect s (.attach pinI pinQ) (respond .ok (natData s.occ) (attachSlot pinI pinQ s))
  | rateSet (hz : Nat) (hrate : Config.RateOk hz) :
      ExecEffect s (.setrate hz) (respond .ok (natData hz) { s with rateHz := hz, incr := Config.timerIncrement hz })
  | cntSet (k : Nat) (value : DataWord) (hk : k < s.occ) :
      ExecEffect s (.setpos k value) (respond .ok 0#32 (modifySlot k (fun sl => { sl with cnt := dataCnt Config.cw value }) s))
  | invCleared (k : Nat) (hk : k < s.occ) :
      ExecEffect s (.clrinv k) (respond .ok 0#32 (modifySlot k (fun sl => { sl with inv := false }) s))

/-! The responses given are of the kinds R55 and R56 allow. -/

theorem admissible_ok (d : DataWord) : (Response.mk .ok d).Admissible := ⟨nofun, fun h => absurd rfl h⟩

theorem admissible_zero {st : Status} (h : st ≠ .causeInvalidTransition) : (Response.mk st 0#32).Admissible :=
  ⟨h, fun _ => rfl⟩

/-! The effect of every instruction. -/

/-- A slot-addressed command answers ERR_SLOT or does `f` to an attached slot (R127). -/
theorem onSlot_effect {i : Instr} {k : Nat} {f : Slot Config.cw → State → State} {s : State} (hcmd : isCommand i = true)
    (hf : ∀ sl, k < s.occ → ExecEffect s i (f sl s)) : ExecEffect s i (onSlot k f s) := by
  obtain ⟨sl, hsl, heq⟩ | ⟨-, heq⟩ := onSlot_cases k f s
  · exact heq ▸ hf sl (List.getElem?_eq_some_iff.mp hsl).1
  · exact heq ▸ .answered .errSlot 0#32 hcmd (admissible_zero (by decide))

/-- Every instruction goes on, with one of these effects. -/
theorem exec_effect (i : Instr) (s : State) : ∃ t, exec i s = .next t ∧ ExecEffect s i t := by
  cases instrKind i with
  | tick =>
    cases h : s.fsm with
    | idle => exact ⟨_, exec_tick_idle h, .ignoredTick h⟩
    | running => exact ⟨_, exec_tick_running h, .ticked h⟩
  | attach pinI pinQ =>
    rcases Nat.lt_or_ge s.occ Config.maxEncoders with h | h
    · exact ⟨_, exec_attach_free h, .attached pinI pinQ h⟩
    · exact ⟨_, exec_attach_full h, .answered _ _ rfl (admissible_zero (by decide))⟩
  | setrate hz =>
    by_cases h : Config.RateOk hz
    · exact ⟨_, exec_setrate_accepted h, .rateSet hz h⟩
    · exact ⟨_, exec_setrate_rejected h, .answered _ _ rfl (admissible_zero (by decide))⟩
  | getpos slot => exact ⟨_, rfl, onSlot_effect rfl fun _ _ => .answered _ _ rfl (admissible_ok _)⟩
  | setpos slot value => exact ⟨_, rfl, onSlot_effect rfl fun _ hk => .cntSet slot value hk⟩
  | getstat slot => exact ⟨_, rfl, onSlot_effect rfl fun _ _ => .answered _ _ rfl (admissible_ok _)⟩
  | clrinv slot => exact ⟨_, rfl, onSlot_effect rfl fun _ hk => .invCleared slot hk⟩
  | reserved hcmd hexec => exact ⟨_, hexec s, .answered _ _ hcmd (admissible_zero (by decide))⟩
  | entry p c hcmd hexec => exact ⟨_, hexec s, .lookedUp p c hcmd⟩

/-- The inversion: where an instruction went on to `t`, one of the effects did it. -/
theorem effect_of_exec {i : Instr} {s t : State} (h : exec i s = .next t) : ExecEffect s i t := by
  obtain ⟨t', ht', heff⟩ := exec_effect i s
  obtain rfl : t' = t := Host.Outcome.next.inj (ht'.symm.trans h)
  exact heff

end Sys2Proof.Machine
end

section
/-! Who may write what (R27), read off the effect of an instruction. -/

namespace Sys2Proof.Machine

/-- What instruction `i` may turn slot `k` from `a` into: its identifiers stay, its state is written by TICK, its counter by TICK
and its own SETPOS, its flag by TICK and its own CLRINV (R27). -/
def SlotWrite (i : Instr) (k : Nat) (a b : Slot Config.cw) : Prop :=
  b.pinI = a.pinI ∧ b.pinQ = a.pinQ ∧
    (b.state ≠ a.state → i = .tick) ∧
    (b.cnt ≠ a.cnt → i = .tick ∨ ∃ v, i = .setpos k v) ∧
    (b.inv ≠ a.inv → i = .tick ∨ i = .clrinv k)

theorem slotWrite_refl (i : Instr) (k : Nat) (a : Slot Config.cw) : SlotWrite i k a a := by simp [SlotWrite]

/-- Replacing slot `j` alone is a write of slot `k` only for `k = j`. -/
theorem slotWrite_modify {i : Instr} {j : Nat} {f : Slot Config.cw → Slot Config.cw} (hf : ∀ a, SlotWrite i j a (f a))
    {slots : List (Slot Config.cw)} {k : Nat} {a : Slot Config.cw} (ha : slots[k]? = some a) :
    ∃ b, (slots.modify j f)[k]? = some b ∧ SlotWrite i k a b := by
  rw [List.getElem?_modify, ha]
  by_cases hjk : j = k
  · subst hjk
    exact ⟨f a, by simp, hf a⟩
  · exact ⟨a, by simp [hjk], slotWrite_refl i k a⟩

namespace ExecEffect

theorem occ_fsm {i : Instr} {s t : State} (h : ExecEffect s i t) (hw : t.occ ≠ s.occ ∨ t.fsm ≠ s.fsm) :
    ∃ a b, i = .attach a b := by
  cases h with
  | attached pinI pinQ hfree => exact ⟨pinI, pinQ, rfl⟩
  | ticked hrun => simp at hw
  | _ => simp [State.occ] at hw

theorem rateHz_incr {i : Instr} {s t : State} (h : ExecEffect s i t) (hw : t.rateHz ≠ s.rateHz ∨ t.incr ≠ s.incr) :
    ∃ hz, i = .setrate hz := by
  cases h with
  | rateSet hz hrate => exact ⟨hz, rfl⟩
  | _ => simp at hw

theorem deadline {i : Instr} {s t : State} (h : ExecEffect s i t) (hw : t.deadline ≠ s.deadline) :
    i = .tick ∨ (s.fsm = .idle ∧ ∃ a b, i = .attach a b) := by
  cases h with
  | ticked hrun => exact .inl rfl
  | attached pinI pinQ hfree =>
    cases hfsm : s.fsm with
    | idle => exact .inr ⟨rfl, pinI, pinQ, rfl⟩
    | running => exact absurd (attachSlot_deadline_of_running hfsm) hw
  | _ => simp at hw

theorem slot {i : Instr} {s t : State} (h : ExecEffect s i t) {k : Nat} {a : Slot Config.cw} (ha : s.slots[k]? = some a) :
    ∃ b, t.slots[k]? = some b ∧ SlotWrite i k a b := by
  cases h with
  | answered st d hcmd hadm => exact ⟨a, ha, slotWrite_refl _ k a⟩
  | lookedUp p c hcmd => exact ⟨a, ha, slotWrite_refl i k a⟩
  | ignoredTick hidle => exact ⟨a, ha, slotWrite_refl _ k a⟩
  | ticked hrun => exact ⟨_, by rw [tick_slot, ha]; rfl, by simp [SlotWrite]⟩
  | attached pinI pinQ hfree =>
    have hk : k < s.slots.length := (List.getElem?_eq_some_iff.mp ha).1
    exact ⟨a, by simpa [List.getElem?_append_left hk] using ha, slotWrite_refl _ k a⟩
  | rateSet hz hrate => exact ⟨a, ha, slotWrite_refl _ k a⟩
  | cntSet j value hj => exact slotWrite_modify (by simp [SlotWrite]) ha
  | invCleared j hj => exact slotWrite_modify (by simp [SlotWrite]) ha

end ExecEffect

/-- Settles O46: one lemma for each part of the state, each by cases on the effect of the instruction. -/
theorem onlyTheNamedOperationsWrite : Obligations.OnlyTheNamedOperationsWrite := by
  unfold Obligations.OnlyTheNamedOperationsWrite
  intro i s t h
  have heff := effect_of_exec h
  exact ⟨heff.occ_fsm, heff.rateHz_incr, heff.deadline, fun _ _ ha => heff.slot ha⟩

end Sys2Proof.Machine
end

section
/-! What one step can do, and the invariants that every step keeps. -/

namespace Sys2Proof.Machine

/-- What one step can do, from the state `s`. An illegal word is answered as a reserved opcode is (R124). -/
inductive StepEffect (s : State) : State → Prop
  | waited (hnone : s.arrivals = []) : StepEffect s s
  /-- A strobe that starts nothing: a low one, or one in Idle. -/
  | dropped (a : Arrival) (rest : List Arrival) (harr : s.arrivals = a :: rest) : StepEffect s { s with arrivals := rest }
  | ran (i : Instr) (rest : List Arrival) {t : State} (heff : ExecEffect { s with arrivals := rest } i t) : StepEffect s t
  | wasReset (rest : List Arrival) (harr : s.arrivals = .reset :: rest) :
      StepEffect s (applyReset { s with arrivals := rest })

theorem runPacket_effect {s t : State} {p : Packet} {rest : List Arrival} (harr : s.arrivals = .packet p :: rest)
    (h : runPacket p { s with arrivals := rest } = .next t) : StepEffect s t := by
  unfold runPacket at h
  cases hdec : decode p with
  | ok i => exact .ran i rest (effect_of_exec (by simpa only [hdec] using h))
  | error r =>
    obtain rfl : rejectPacket r { s with arrivals := rest } = t := by simpa only [hdec, Host.Outcome.next.injEq] using h
    cases r with
    | strobeLow => exact .dropped _ rest harr
    | slotNotZero => exact .ran (.reserved0 0#36) rest (effect_of_exec rfl)
    | argNotZero => exact .ran (.reserved0 0#36) rest (effect_of_exec rfl)

/-- The inversion: where a step went on to `t`, one of the effects did it. -/
theorem effect_of_step {s t : State} (h : step s = .next t) : StepEffect s t := by
  unfold step at h
  split at h
  next hnone => cases h; exact .waited hnone
  next p rest harr => exact runPacket_effect harr h
  next w rest harr => exact .ran .tick _ (effect_of_exec h)
  next rest harr =>
    cases hfsm : s.fsm with
    | idle =>
      obtain rfl : { s with arrivals := rest } = t := by simpa [overlapTick, hfsm] using h
      exact .dropped _ rest harr
    | running => simp [overlapTick, hfsm] at h
  next rest harr => cases h; exact .wasReset rest harr

/-- A property of the state that no change of the waiting arrivals, no instruction and no reset breaks is kept by every step. -/
theorem step_keeps {P : State → Prop} (harrivals : ∀ s rest, P s → P { s with arrivals := rest })
    (hexec : ∀ {i s t}, ExecEffect s i t → P s → P t) (hreset : ∀ s, P s → P (applyReset s))
    {s t : State} (hs : P s) (h : step s = .next t) : P t := by
  cases effect_of_step h with
  | waited hnone => exact hs
  | dropped a rest harr => exact harrivals s rest hs
  | ran i rest heff => exact hexec heff (harrivals s rest hs)
  | wasReset rest harr => exact hreset _ (harrivals s rest hs)

/-! The invariants I1 to I4. -/

/-- The invariants speak of four registers and the responses alone. -/
theorem State.Inv.of_eq {s t : State} (hs : s.Inv) (hocc : t.occ = s.occ) (hfsm : t.fsm = s.fsm) (hrate : t.rateHz = s.rateHz)
    (hincr : t.incr = s.incr) (hresp : t.responses = s.responses) : t.Inv where
  occ_le := hocc ▸ hs.occ_le
  running_iff := by rw [hfsm, hocc]; exact hs.running_iff
  rate_ok := hrate ▸ hs.rate_ok
  incr_eq := by rw [hincr, hrate]; exact hs.incr_eq
  responses_ok := hresp ▸ hs.responses_ok

theorem State.Inv.respond {s : State} (hs : s.Inv) {st : Status} {d : DataWord} (hadm : (Response.mk st d).Admissible) :
    (respond st d s).Inv where
  occ_le := hs.occ_le
  running_iff := hs.running_iff
  rate_ok := hs.rate_ok
  incr_eq := hs.incr_eq
  responses_ok := by
    intro r hr
    obtain hr | rfl : r ∈ s.responses ∨ r = ⟨st, d⟩ := by simpa using hr
    · exact hs.responses_ok r hr
    · exact hadm

theorem State.Inv.attachSlot {s : State} (hs : s.Inv) (hfree : s.occ < Config.maxEncoders) (pinI pinQ : PinId) :
    (attachSlot pinI pinQ s).Inv where
  occ_le := by simpa [State.occ] using hfree
  running_iff := by simp [State.occ]
  rate_ok := by simpa using hs.rate_ok
  incr_eq := by simpa using hs.incr_eq
  responses_ok := by simpa using hs.responses_ok

theorem State.Inv.setRate {s : State} (hs : s.Inv) {hz : Nat} (hrate : Config.RateOk hz) :
    State.Inv { s with rateHz := hz, incr := Config.timerIncrement hz } where
  occ_le := hs.occ_le
  running_iff := hs.running_iff
  rate_ok := hrate
  incr_eq := rfl
  responses_ok := hs.responses_ok

theorem State.Inv.modifySlot {s : State} (hs : s.Inv) (k : Nat) (f : Slot Config.cw → Slot Config.cw) :
    (modifySlot k f s).Inv :=
  hs.of_eq (List.length_modify ..) rfl rfl rfl rfl

theorem applyReset_inv {s : State} (hresp : ∀ r ∈ s.responses, r.Admissible) : (applyReset s).Inv where
  occ_le := Nat.zero_le _
  running_iff := by simp [State.occ]
  rate_ok := Config.defaultRateHz_range
  incr_eq := rfl
  responses_ok := hresp

theorem ExecEffect.inv {i : Instr} {s t : State} (h : ExecEffect s i t) (hs : s.Inv) : t.Inv := by
  cases h with
  | answered st d hcmd hadm => exact hs.respond hadm
  | lookedUp p c hcmd => exact hs.of_eq rfl rfl rfl rfl rfl
  | ignoredTick hidle => exact hs
  | ticked hrun => exact hs.of_eq (tick_occ s) (tick_fsm s) (tick_rateHz s) (tick_incr s) (tick_responses s)
  | attached pinI pinQ hfree => exact (hs.attachSlot hfree pinI pinQ).respond (admissible_ok _)
  | rateSet hz hrate => exact (hs.setRate hrate).respond (admissible_ok _)
  | cntSet k value hk => exact (hs.modifySlot k _).respond (admissible_ok _)
  | invCleared k hk => exact (hs.modifySlot k _).respond (admissible_ok _)

/-- Settles O55: the invariants speak of no arrival, every effect of an instruction keeps them, and a reset gives them. -/
theorem stepKeepsTheInvariants : Obligations.StepKeepsTheInvariants := by
  unfold Obligations.StepKeepsTheInvariants
  intro s t
  exact step_keeps (fun _ _ hs => hs.of_eq rfl rfl rfl rfl rfl) ExecEffect.inv (fun _ hs => applyReset_inv hs.responses_ok)

/-- Settles O54: the reset state is what a reset makes of itself, and it has given no response. -/
theorem resetMeetsTheInvariants : Obligations.ResetMeetsTheInvariants := by
  unfold Obligations.ResetMeetsTheInvariants
  exact applyReset_inv (s := State.reset) (fun _ hr => absurd hr List.not_mem_nil)

/-- Settles O52: the reset values, and an ATTACH from there, which finds a free slot because the capacity is at least 1. -/
theorem resetRegisters : Obligations.ResetRegisters := by
  unfold Obligations.ResetRegisters
  exact ⟨rfl, rfl, rfl, rfl, fun a b =>
    ⟨_, exec_attach_free (s := State.reset) Config.maxEncoders_pos, attachSlot_slots a b State.reset⟩⟩

/-! I5: the lines of the attached slots are those last configured. -/

theorem configuredLines_append (xs ys : List Event) :
    configuredLines (xs ++ ys) = configuredLines xs ++ configuredLines ys := by
  induction xs with
  | nil => rfl
  | cons e xs ih => cases e <;> simp [configuredLines, ih]

/-- The start of the source configures no line. -/
theorem configuredLines_startIfIdle (s : State) : configuredLines (startIfIdle s).trace = configuredLines s.trace := by
  cases h : s.fsm with
  | idle => simp [startIfIdle_idle h, configuredLines_append, configuredLines]
  | running => rw [startIfIdle_running h]

/-- An ATTACH configures its two lines, I before Q (R116). -/
theorem configuredLines_attachSlot (pinI pinQ : PinId) (s : State) :
    configuredLines (attachSlot pinI pinQ s).trace = configuredLines s.trace ++ [pinI, pinQ] := by
  simp [attachSlot, configuredLines_startIfIdle, configuredLines_append, configuredLines]

theorem slotLines_append (xs ys : List (Slot Config.cw)) : slotLines (xs ++ ys) = slotLines xs ++ slotLines ys :=
  List.flatMap_append

/-- Two registries of one length have the same lines where every slot keeps its identifiers. -/
theorem slotLines_eq_of_pins {xs ys : List (Slot Config.cw)} (hlen : ys.length = xs.length)
    (h : ∀ (k : Nat) (a : Slot Config.cw), xs[k]? = some a → ∃ b, ys[k]? = some b ∧ b.pinI = a.pinI ∧ b.pinQ = a.pinQ) :
    slotLines ys = slotLines xs := by
  induction xs generalizing ys with
  | nil => rw [List.length_eq_zero_iff.mp hlen]
  | cons a xs ih =>
    obtain ⟨b, ys, rfl⟩ := List.exists_cons_of_length_eq_add_one hlen
    have htail : slotLines ys = slotLines xs := ih (Nat.succ.inj hlen) fun k => h (k + 1)
    obtain ⟨hI, hQ⟩ : b.pinI = a.pinI ∧ b.pinQ = a.pinQ := by simpa using h 0 a rfl
    simp only [slotLines, List.flatMap_cons] at htail ⊢
    rw [hI, hQ, htail]

/-- No instruction changes an attached slot's lines, so the registry's lines change only with its length. -/
theorem ExecEffect.slotLines_eq {i : Instr} {s t : State} (h : ExecEffect s i t) (hocc : t.occ = s.occ) :
    slotLines t.slots = slotLines s.slots :=
  slotLines_eq_of_pins hocc fun _ _ ha =>
    have ⟨b, hb, hI, hQ, _⟩ := h.slot ha
    ⟨b, hb, hI, hQ⟩

theorem ExecEffect.linesConfigured {i : Instr} {s t : State} (h : ExecEffect s i t) (hs : s.LinesConfigured) :
    t.LinesConfigured := by
  have hkept : t.occ = s.occ → t.trace = s.trace → t.LinesConfigured := fun hocc htrace => by
    rw [State.LinesConfigured, h.slotLines_eq hocc, htrace]; exact hs
  cases h with
  | answered st d hcmd hadm => exact hs
  | lookedUp p c hcmd => exact hs
  | ignoredTick hidle => exact hs
  | ticked hrun => exact hkept (tick_occ s) (tick_trace s)
  | attached pinI pinQ hfree =>
    rw [State.LinesConfigured, respond_slots, respond_trace, attachSlot_slots, slotLines_append, configuredLines_attachSlot]
    exact List.suffix_append_self_iff.mpr hs
  | rateSet hz hrate => exact hs
  | cntSet k value hk => exact hkept (List.length_modify ..) rfl
  | invCleared k hk => exact hkept (List.length_modify ..) rfl

/-- Settles O56: an instruction keeps the lines or, with an ATTACH, adds the same two on both sides; with no slot attached, as after
a reset, there is nothing to show. -/
theorem stepKeepsLinesConfigured : Obligations.StepKeepsLinesConfigured := by
  unfold Obligations.StepKeepsLinesConfigured
  exact ⟨List.nil_suffix, fun _ _ => step_keeps (fun _ _ hs => hs) ExecEffect.linesConfigured (fun _ _ => List.nil_suffix)⟩

end Sys2Proof.Machine
end

section
/-! The `inv` flags as pure observers (R14): every operation but GETSTAT does the same, up to flags, on a state whose flags have
been erased. -/

namespace Sys2Proof.Machine

/-- The slot with its flag erased, as `sameButInv` compares slots. -/
def Slot.eraseInv {w : Nat} (sl : Slot w) : Slot w := { sl with inv := false }

/-- The state with every flag erased. -/
def State.eraseInv (s : State) : State := { s with slots := s.slots.map Slot.eraseInv }

/-- Equal after erasure: the two states differ in nothing but flags. -/
theorem eraseInv_eq_iff {s u : State} :
    u.eraseInv = s.eraseInv ↔ sameButInv s.slots u.slots ∧ u = { s with slots := u.slots } := by
  cases s; cases u
  simp only [State.eraseInv, sameButInv, State.mk.injEq, true_and]
  exact and_congr_left' eq_comm

@[simp] theorem eraseInv_eraseInv (s : State) : s.eraseInv.eraseInv = s.eraseInv := by
  simp [State.eraseInv, Slot.eraseInv]

@[simp] theorem eraseInv_occ (s : State) : s.eraseInv.occ = s.occ := List.length_map _
@[simp] theorem eraseInv_fsm (s : State) : s.eraseInv.fsm = s.fsm := rfl

theorem eraseInv_slot (s : State) (k : Nat) : s.eraseInv.slots[k]? = (s.slots[k]?).map Slot.eraseInv := List.getElem?_map

/-! The operations on an erased state. -/

theorem respond_eraseInv (st : Status) (d : DataWord) (s : State) :
    respond st d s.eraseInv = (respond st d s).eraseInv := rfl

theorem startIfIdle_eraseInv (s : State) : startIfIdle s.eraseInv = (startIfIdle s).eraseInv := by
  cases h : s.fsm with
  | idle => rw [startIfIdle_idle h, startIfIdle_idle (by simpa using h)]; rfl
  | running => rw [startIfIdle_running h, startIfIdle_running (by simpa using h)]

theorem attachSlot_eraseInv (pinI pinQ : PinId) (s : State) :
    attachSlot pinI pinQ s.eraseInv = (attachSlot pinI pinQ s).eraseInv := by
  rw [attachSlot, attachSlot, ← startIfIdle_eraseInv]
  simp [addSlot, emit, State.eraseInv, Slot.eraseInv, freshSlot]

theorem modifySlot_eraseInv {k : Nat} {f : Slot Config.cw → Slot Config.cw} (hf : ∀ sl, f sl.eraseInv = (f sl).eraseInv)
    (s : State) : modifySlot k f s.eraseInv = (modifySlot k f s).eraseInv := by
  have hslots : (s.slots.map Slot.eraseInv).modify k f = (s.slots.modify k f).map Slot.eraseInv := by
    apply List.ext_getElem?
    intro j
    simp only [List.getElem?_modify, List.getElem?_map]
    cases s.slots[j]? with
    | none => rfl
    | some sl => by_cases hkj : k = j <;> simp [hkj, hf]
  simp only [modifySlot, State.eraseInv, hslots]

/-- A slot-addressed command that does the same on erased slots and states does the same on an erased registry. -/
theorem onSlot_eraseInv {k : Nat} {f : Slot Config.cw → State → State}
    (hf : ∀ sl s, f sl.eraseInv s.eraseInv = (f sl s).eraseInv) (s : State) :
    onSlot k f s.eraseInv = (onSlot k f s).eraseInv := by
  obtain ⟨sl, hsl, heq⟩ | ⟨hk, heq⟩ := onSlot_cases k f s
  · rw [heq, onSlot_attached (by rw [eraseInv_slot, hsl]; rfl), hf]
  · rw [heq, onSlot_free (by simpa using hk), respond_eraseInv]

/-- SETPOS and CLRINV: an assignment to a slot that neither reads its flag nor sets it. -/
theorem assignSlot_eraseInv {k : Nat} {f : Slot Config.cw → Slot Config.cw} (hf : ∀ sl, f sl.eraseInv = (f sl).eraseInv)
    (s : State) :
    onSlot k (fun _ t => respond .ok 0#32 (modifySlot k f t)) s.eraseInv =
      (onSlot k (fun _ t => respond .ok 0#32 (modifySlot k f t)) s).eraseInv :=
  onSlot_eraseInv (fun _ t => congrArg (respond .ok 0#32) (modifySlot_eraseInv hf t)) s

theorem slotLines_map_eraseInv (slots : List (Slot Config.cw)) : slotLines (slots.map Slot.eraseInv) = slotLines slots := by
  simp [slotLines, List.flatMap_map, Slot.eraseInv]

/-- A TICK adds to a flag but reads it for nothing else (R96). -/
theorem tick_eraseInv (s : State) : (tick s.eraseInv).eraseInv = (tick s).eraseInv := by
  have hslots : (tick s.eraseInv).slots.map Slot.eraseInv = (tick s).slots.map Slot.eraseInv := by
    apply List.ext_getElem?
    intro k
    rw [List.getElem?_map, List.getElem?_map, tick_slot, tick_slot, eraseInv_slot]
    cases s.slots[k]? <;> rfl
  rw [State.eraseInv, hslots, tick_closed, tick_closed]
  simp only [State.eraseInv, State.occ, List.length_map, slotLines_map_eraseInv]

/-- Every instruction but GETSTAT, on a state and on its erasure, goes on to states that differ in nothing but flags. -/
theorem exec_eraseInv {i : Instr} (hi : ∀ k, i ≠ .getstat k) (s : State) :
    ∃ t u, exec i s = .next t ∧ exec i s.eraseInv = .next u ∧ u.eraseInv = t.eraseInv := by
  -- all but TICK go on to the erasure itself
  have strict : ∀ {t}, exec i s = .next t → exec i s.eraseInv = .next t.eraseInv →
      ∃ t u, exec i s = .next t ∧ exec i s.eraseInv = .next u ∧ u.eraseInv = t.eraseInv :=
    fun ht hu => ⟨_, _, ht, hu, eraseInv_eraseInv _⟩
  cases instrKind i with
  | tick =>
    cases h : s.fsm with
    | idle => exact strict (exec_tick_idle h) (exec_tick_idle (by simpa using h))
    | running => exact ⟨_, _, exec_tick_running h, exec_tick_running (by simpa using h), tick_eraseInv s⟩
  | attach pinI pinQ =>
    rcases Nat.lt_or_ge s.occ Config.maxEncoders with h | h
    · refine strict (exec_attach_free h) ?_
      rw [exec_attach_free (by simpa using h), attachSlot_eraseInv, eraseInv_occ, respond_eraseInv]
    · exact strict (exec_attach_full h) (exec_attach_full (by simpa using h))
  | setrate hz =>
    by_cases h : Config.RateOk hz
    · exact strict (exec_setrate_accepted h) (exec_setrate_accepted h)
    · exact strict (exec_setrate_rejected h) (exec_setrate_rejected h)
  | getpos k => exact strict rfl (congrArg Host.Outcome.next (onSlot_eraseInv (fun _ _ => by rfl) s))
  | setpos k value => exact strict rfl (congrArg Host.Outcome.next (assignSlot_eraseInv (fun _ => by rfl) s))
  | getstat k => exact absurd rfl (hi k)
  | clrinv k => exact strict rfl (congrArg Host.Outcome.next (assignSlot_eraseInv (fun _ => by rfl) s))
  | reserved hcmd hexec => exact strict (hexec s) (hexec s.eraseInv)
  | entry p c hcmd hexec => exact strict (hexec s) (hexec s.eraseInv)

/-- Settles O47: two states that differ in flags alone have one erasure, and both go on as it does. -/
theorem invFlagInfluencesNothingElse : Obligations.InvFlagInfluencesNothingElse := by
  unfold Obligations.InvFlagInfluencesNothingElse
  intro i s s' others hi hsame hs'
  have herase : State.eraseInv { s with slots := others } = s.eraseInv := eraseInv_eq_iff.mpr ⟨hsame, rfl⟩
  obtain ⟨t, v, ht, hv, hvt⟩ := exec_eraseInv hi s
  obtain ⟨u, v', hu, hv', hvu⟩ := exec_eraseInv hi { s with slots := others }
  obtain rfl : t = s' := Host.Outcome.next.inj (ht.symm.trans hs')
  obtain rfl : v' = v := Host.Outcome.next.inj (by rw [← hv, ← hv', herase])
  obtain ⟨hslots, hrest⟩ := eraseInv_eq_iff.mp (hvu.symm.trans hvt)
  exact ⟨u, hu, hslots, hrest⟩

end Sys2Proof.Machine
end

section
/-! The order of operations on the registers (spec/20_memory.md): a step runs the presented packet, a read answers from the registry
alone, and an increment takes effect at the next TICK. -/

namespace Sys2Proof.Machine

/-! One step on a presented packet. -/

theorem step_packet {s : State} {p : Packet} {rest : List Arrival} (h : s.arrivals = .packet p :: rest) :
    step s = runPacket p { s with arrivals := rest } := by
  simp [step, h]

theorem runPacket_decoded {p : Packet} {i : Instr} (h : decode p = .ok i) (s : State) : runPacket p s = exec i s := by
  simp [runPacket, h]

/-- Settles O49: the step takes the packet, and a packet that decodes is run. -/
theorem stepRunsTheDecodedInstruction : Obligations.StepRunsTheDecodedInstruction := by
  unfold Obligations.StepRunsTheDecodedInstruction
  intro s p rest i harr hdec
  rw [step_packet harr, runPacket_decoded hdec]

/-! The deadline under TICK. -/

@[simp] theorem tick_deadline (s : State) : (tick s).deadline = s.deadline + s.incr := by rw [tick_closed]

/-- Settles O35: SETRATE writes `incr` and not the deadline, and it is TICK that adds `incr`. -/
theorem newIncrementCountsFromTheNextTick : Obligations.NewIncrementCountsFromTheNextTick := by
  unfold Obligations.NewIncrementCountsFromTheNextTick
  intro s hz hrun hmin hmax
  exact ⟨_, _, exec_setrate_accepted ⟨hmin, hmax⟩, rfl, exec_tick_running hrun, tick_deadline _⟩

/-! Reads. -/

theorem execAll_cons {i : Instr} {s t : State} (h : exec i s = .next t) (is : List Instr) :
    execAll (i :: is) s = execAll is t := by
  simp [execAll, h]

/-- A read gives one and the same response in every state with the same registry: what an attached slot holds, or ERR_SLOT. -/
theorem onSlot_read_response (k : Nat) (d : Slot Config.cw → DataWord) (slots : List (Slot Config.cw)) :
    ∃ st w, ∀ s : State, s.slots = slots → onSlot k (fun sl t => respond .ok (d sl) t) s = respond st w s := by
  rcases h : slots[k]? with _ | sl
  · exact ⟨.errSlot, 0#32, fun s hs => onSlot_free (List.getElem?_eq_none_iff.mp (hs ▸ h))⟩
  · exact ⟨.ok, d sl, fun s hs => onSlot_attached (hs ▸ h)⟩

/-- A read leaves the registry as it was, so the read after it gives its response again (R42). -/
theorem execAll_read_twice {i : Instr} {k : Nat} {d : Slot Config.cw → DataWord}
    (hread : ∀ s, exec i s = .next (onSlot k (fun sl t => respond .ok (d sl) t) s)) (s : State) :
    ∃ r : Response, execAll [i, i] s = .next { s with responses := s.responses ++ [r, r] } := by
  obtain ⟨st, w, hresp⟩ := onSlot_read_response k d s.slots
  have hone : ∀ t : State, t.slots = s.slots → exec i t = .next (respond st w t) := fun t ht => by rw [hread, hresp t ht]
  refine ⟨⟨st, w⟩, ?_⟩
  rw [execAll_cons (hone s rfl), execAll_cons (hone _ (respond_slots st w s))]
  simp [execAll, respond]

/-- Settles O37: GETPOS and GETSTAT are reads, which differ only in the data they take from the slot. -/
theorem readsHaveNoSideEffect : Obligations.ReadsHaveNoSideEffect := by
  unfold Obligations.ReadsHaveNoSideEffect
  intro s k
  have ⟨r, hpos⟩ := execAll_read_twice (i := .getpos k) (d := fun sl => cntData sl.cnt) (fun _ => rfl) s
  have ⟨r', hstat⟩ := execAll_read_twice (i := .getstat k) (d := statData) (fun _ => rfl) s
  exact ⟨r, r', hpos, hstat⟩

end Sys2Proof.Machine
end

section
/-! The command word (spec/30_encoding.md section 3): what the decoder makes of its three fields, the rows of the opcode table by
field, and what the step answers to an illegal word. -/

namespace Sys2Proof

/-! The fields of a command word. -/

theorem cmdWord_inj {op op' slot slot' : BitVec 4} {arg arg' : DataWord} :
    cmdWord op slot arg = cmdWord op' slot' arg' ↔ op = op' ∧ slot = slot' ∧ arg = arg' := by
  refine ⟨fun h => ⟨?_, ?_, ?_⟩, ?_⟩
  · simpa using congrArg opOf h
  · simpa using congrArg slotOf h
  · simpa using congrArg argOf h
  · rintro ⟨rfl, rfl, rfl⟩; rfl

theorem slotOf_eq_zero (w : CmdWord) : slotOf w = 0#4 ↔ w.toNat / 2 ^ 32 % 16 = 0 := by
  rw [← slotOf_toNat, BitVec.toNat_eq, BitVec.toNat_ofNat, Nat.zero_mod]

theorem argOf_eq_zero (w : CmdWord) : argOf w = 0#32 ↔ w.toNat % 2 ^ 32 = 0 := by
  rw [← argOf_toNat, BitVec.toNat_eq, BitVec.toNat_ofNat, Nat.zero_mod]

theorem argOf_eq_ofNat (w : CmdWord) : argOf w = BitVec.ofNat 32 (w.toNat % 2 ^ 32) := by
  rw [← argOf_toNat, BitVec.ofNat_toNat, BitVec.setWidth_eq]

theorem restOf_eq_ofNat (w : CmdWord) : restOf w = BitVec.ofNat 36 w.toNat :=
  BitVec.eq_of_toNat_eq (by rw [restOf_toNat, BitVec.toNat_ofNat])

theorem pinIOf_eq_ofNat (a : DataWord) : pinIOf a = BitVec.ofNat 16 (a.toNat / 65536) := by
  rw [← pinIOf_toNat, BitVec.ofNat_toNat, BitVec.setWidth_eq]

theorem pinQOf_eq_ofNat (a : DataWord) : pinQOf a = BitVec.ofNat 16 (a.toNat % 65536) := by
  rw [← pinQOf_toNat, BitVec.ofNat_toNat, BitVec.setWidth_eq]

theorem needZeroSlot_eq (w : CmdWord) (i : Instr) :
    needZeroSlot w i = if w.toNat / 2 ^ 32 % 16 = 0 then .ok i else .error .slotNotZero := by
  simp only [needZeroSlot, slotOf_eq_zero]

theorem needZeroArg_eq (w : CmdWord) (i : Instr) :
    needZeroArg w i = if w.toNat % 2 ^ 32 = 0 then .ok i else .error .argNotZero := by
  simp only [needZeroArg, argOf_eq_zero]

theorem decode_cmd (w : CmdWord) : decode (.cmd w) = decodeCommand w := rfl

/-- Settles O5: at each opcode the decoder's arm, with the fields and the two must-be-zero checks put in arithmetic form. -/
theorem commandWordsDecodeByFields : Obligations.CommandWordsDecodeByFields := by
  unfold Obligations.CommandWordsDecodeByFields
  intro w
  simp only [decode_cmd, ← argOf_toNat, ← pinIOf_eq_ofNat, ← pinQOf_eq_ofNat]
  rw [← opOf_toNat]
  refine ⟨?attach, ?setrate, ?getpos, ?setpos, ?getstat, ?clrinv, ?_, ?_, ?_, ?_, ?_, ?_, ?_, ?_, ?_, ?_⟩ <;> intro hop
  case attach => simp [decodeCommand, hop, needZeroSlot_eq]
  case setrate => simp [decodeCommand, hop, needZeroSlot_eq]
  case getpos => simp [decodeCommand, hop, needZeroArg_eq, slotOf_toNat, argOf_toNat]
  case setpos => simp [decodeCommand, hop, slotOf_toNat]
  case getstat => simp [decodeCommand, hop, needZeroArg_eq, slotOf_toNat, argOf_toNat]
  case clrinv => simp [decodeCommand, hop, needZeroArg_eq, slotOf_toNat, argOf_toNat]
  -- The ten reserved opcodes, which keep the bits 35..0.
  all_goals simp only [decodeCommand, hop, restOf_eq_ofNat]

/-! What the decoder can make of a command word, said once. -/

/-- The must-be-zero field of the word's opcode, where it has one, is zero (R57). -/
def MustBeZero (w : CmdWord) : Prop :=
  ((opOf w).toNat = 1 ∨ (opOf w).toNat = 2 → slotOf w = 0#4) ∧
  ((opOf w).toNat = 3 ∨ (opOf w).toNat = 5 ∨ (opOf w).toNat = 6 → argOf w = 0#32)

/-- One of the six commands of R50 to R54. -/
def HostCommand (i : Instr) : Prop :=
  (∃ a b, i = .attach a b) ∨ (∃ hz, i = .setrate hz) ∨ (∃ k, i = .getpos k) ∨ (∃ k v, i = .setpos k v) ∨
    (∃ k, i = .getstat k) ∨ (∃ k, i = .clrinv k)

/-- The decoder's answers to the word `w`: a reserved opcode, which means ERR_ILLEGAL; one of the six commands; a rejection
because the must-be-zero field is not zero (R57, R58, R124). -/
inductive DecodeCase (w : CmdWord) : Except Reject Instr → Prop
  | reserved {i : Instr} (hop : (opOf w).toNat = 0 ∨ 7 ≤ (opOf w).toNat)
      (hexec : ∀ s, Machine.exec i s = .next (Machine.respond .errIllegal 0#32 s)) : DecodeCase w (.ok i)
  | command {i : Instr} (hop : 1 ≤ (opOf w).toNat ∧ (opOf w).toNat ≤ 6) (hzero : MustBeZero w) (hcmd : HostCommand i) :
      DecodeCase w (.ok i)
  | rejected {r : Reject} (hop : 1 ≤ (opOf w).toNat ∧ (opOf w).toNat ≤ 6) (hzero : ¬ MustBeZero w)
      (hr : r ≠ .strobeLow) :
      DecodeCase w (.error r)

theorem decodeCase_needZeroSlot {w : CmdWord} {i : Instr} (hop : (opOf w).toNat = 1 ∨ (opOf w).toNat = 2)
    (hcmd : HostCommand i) : DecodeCase w (needZeroSlot w i) := by
  unfold needZeroSlot
  split
  next hslot => exact .command (by omega) ⟨fun _ => hslot, by omega⟩ hcmd
  next hslot => exact .rejected (by omega) (fun hzero => hslot (hzero.1 hop)) nofun

theorem decodeCase_needZeroArg {w : CmdWord} {i : Instr}
    (hop : (opOf w).toNat = 3 ∨ (opOf w).toNat = 5 ∨ (opOf w).toNat = 6) (hcmd : HostCommand i) :
    DecodeCase w (needZeroArg w i) := by
  unfold needZeroArg
  split
  next harg => exact .command (by omega) ⟨by omega, fun _ => harg⟩ hcmd
  next harg => exact .rejected (by omega) (fun hzero => harg (hzero.2 hop)) nofun

theorem decodeCase (w : CmdWord) : DecodeCase w (decode (.cmd w)) := by
  rw [decode_cmd, decodeCommand]
  split
  next hop => exact .reserved (.inl hop) fun _ => rfl
  next hop => exact decodeCase_needZeroSlot (.inl hop) (.inl ⟨_, _, rfl⟩)
  next hop => exact decodeCase_needZeroSlot (.inr hop) (.inr (.inl ⟨_, rfl⟩))
  next hop => exact decodeCase_needZeroArg (.inl hop) (.inr (.inr (.inl ⟨_, rfl⟩)))
  next hop => exact .command (by omega) ⟨by omega, by omega⟩ (.inr (.inr (.inr (.inl ⟨_, _, rfl⟩))))
  next hop => exact decodeCase_needZeroArg (.inr (.inl hop)) (.inr (.inr (.inr (.inr (.inl ⟨_, rfl⟩)))))
  next hop => exact decodeCase_needZeroArg (.inr (.inr hop)) (.inr (.inr (.inr (.inr (.inr ⟨_, rfl⟩)))))
  case h_16 =>
    simp only [imp_false] at *
    exact .reserved (.inr (by omega)) fun _ => rfl
  all_goals exact .reserved (.inr (by omega)) fun _ => rfl

/-! The rows of the opcode table, by field. -/

/-- The mask and the match of an opcode's row: the opcode, and its must-be-zero field (R58). -/
def commandRow (op : BitVec 4) : CmdWord × CmdWord :=
  (cmdWord 15#4 (if op.toNat = 1 ∨ op.toNat = 2 then 15#4 else 0#4)
    (if op.toNat = 3 ∨ op.toNat = 5 ∨ op.toNat = 6 then BitVec.allOnes 32 else 0#32), cmdWord op 0#4 0#32)

/-- The opcodes in the order of the table's rows. -/
def rowOpcodes : List (BitVec 4) := [1, 2, 3, 4, 5, 6, 0, 7, 8, 9, 10, 11, 12, 13, 14, 15]

theorem commandRows_eq : Machine.commandRows = rowOpcodes.map commandRow := by decide

theorem count_rowOpcodes (op : BitVec 4) : rowOpcodes.count op = 1 := by revert op; decide

/-- A word matches the row of its own opcode alone, and that one if the must-be-zero field is zero. -/
theorem matches_commandRow_iff (w : CmdWord) (op : BitVec 4) :
    w &&& (commandRow op).1 = (commandRow op).2 ↔ op = opOf w ∧ MustBeZero w := by
  conv_lhs => rw [commandRow, ← cmdWord_fields w, cmdWord_and, cmdWord_inj, and_fifteen, eq_comm]
  refine and_congr_right fun hop => ?_
  subst hop
  unfold MustBeZero
  refine and_congr ?_ ?_
  · split
    next hop => simp [hop, and_fifteen]
    next hop => simp [hop]
  · split
    next hop => rw [BitVec.and_allOnes]; simp [hop]
    next hop => simp [hop]

theorem countP_commandRows (w : CmdWord) [Decidable (MustBeZero w)] :
    Machine.commandRows.countP (fun row => decide (w &&& row.1 = row.2)) = if MustBeZero w then 1 else 0 := by
  simp only [commandRows_eq, List.countP_map, Function.comp_def, matches_commandRow_iff]
  split
  next hzero =>
    simp only [hzero, and_true]
    exact count_rowOpcodes (opOf w)
  next hzero => simp [hzero]

/-- Settles O8: the rows are those of the sixteen opcodes, of which a word has one. -/
theorem atMostOneTableRowMatches : Obligations.AtMostOneTableRowMatches := by
  unfold Obligations.AtMostOneTableRowMatches
  intro w
  classical
  rw [countP_commandRows]
  have hcase := decodeCase w
  generalize decode (.cmd w) = d at hcase
  cases hcase with
  | reserved hop hexec => exact if_pos ⟨by omega, by omega⟩
  | command hop hzero hcmd => exact if_pos hzero
  | rejected hop hzero hr => exact if_neg hzero

end Sys2Proof

namespace Sys2Proof.Machine

/-! Illegal words. -/

theorem runPacket_rejected {p : Packet} {r : Reject} (h : decode p = .error r) (s : State) :
    runPacket p s = .next (rejectPacket r s) := by
  simp [runPacket, h]

theorem rejectPacket_illegal {r : Reject} (hr : r ≠ .strobeLow) (s : State) :
    rejectPacket r s = respond .errIllegal 0#32 s := by
  cases r with
  | strobeLow => exact absurd rfl hr
  | slotNotZero => rfl
  | argNotZero => rfl

theorem illegalWord_iff (w : CmdWord) :
    IllegalWord w ↔ (opOf w).toNat = 0 ∨ 7 ≤ (opOf w).toNat ∨ ¬ MustBeZero w := by
  simp only [IllegalWord, MustBeZero, slotOf_eq_zero, argOf_eq_zero, opOf_toNat]
  tauto

/-- Settles O44: a reserved opcode and a rejected word are answered alike, and what is left of the decoder's cases is the six
commands. -/
theorem illegalWordsAreAnswered : Obligations.IllegalWordsAreAnswered := by
  unfold Obligations.IllegalWordsAreAnswered
  intro s w rest harr
  rw [step_packet harr]
  have hcase := decodeCase w
  generalize hdec : decode (.cmd w) = d at hcase
  cases hcase with
  | reserved hop hexec =>
    have hill : IllegalWord w := (illegalWord_iff w).mpr (hop.imp_right .inl)
    exact ⟨fun _ => by rw [runPacket_decoded hdec, hexec]; rfl, fun hlegal => absurd hill hlegal⟩
  | command hop hzero hcmd =>
    have hlegal : ¬ IllegalWord w := by
      simp only [illegalWord_iff, hzero, not_true, or_false]
      omega
    exact ⟨fun hill => absurd hill hlegal, fun _ => ⟨_, rfl, hcmd⟩⟩
  | rejected hop hzero hr =>
    have hill : IllegalWord w := (illegalWord_iff w).mpr (.inr (.inr hzero))
    exact ⟨fun _ => by rw [runPacket_rejected hdec, rejectPacket_illegal hr]; rfl, fun hlegal => absurd hill hlegal⟩

end Sys2Proof.Machine
end

section
/-! Operands and table values in their fields (R45, R48, R53, R55): what survives the change of width. -/

namespace Sys2Proof.Machine

/-! Table values in CW bits. -/

theorem ttLookup_mem (v : Int) (p c : QState) : ttLookup v p c ∈ ttEntries v := by
  have hidx : (ttIndex p c).toNat < (ttEntries v).length := (ttIndex p c).isLt
  rw [ttLookup, List.getD_eq_getElem _ _ hidx]
  exact List.getElem_mem hidx

theorem TT_cases (p c : QState) : TT p c = 0 ∨ TT p c = 1 ∨ TT p c = -1 ∨ TT p c = Config.invalidDelta := by
  have hmem := ttLookup_mem Config.invalidDelta p c
  simp only [ttEntries, List.mem_cons, List.not_mem_nil, or_false] at hmem
  unfold TT
  tauto

/-- Every table value is a signed CW-bit value, as CW is at least 2 and the sentinel is one (R4). -/
theorem TT_range (p c : QState) : -(2 ^ (Config.cw - 1)) ≤ TT p c ∧ TT p c < 2 ^ (Config.cw - 1) := by
  have hcw := Config.cw_ge_two
  have hpow : (2 : Int) ≤ 2 ^ (Config.cw - 1) := le_self_pow₀ (by decide) (by omega)
  obtain h | h | h | h := TT_cases p c <;> rw [h]
  · omega
  · omega
  · omega
  · exact Config.sentinel_range _ _

/-- Settles O3: the four encodings, and a signed CW-bit value keeps its value in CW bits. -/
theorem tableValuesSurviveCounterWidth : Obligations.TableValuesSurviveCounterWidth := by
  unfold Obligations.TableValuesSurviveCounterWidth
  refine ⟨rfl, rfl, ?minusOne, ?sentinel, fun p c => ?value⟩
  case minusOne => exact BitVec.ofInt_neg.trans BitVec.neg_one_eq_allOnes
  case sentinel =>
    rw [encInt, BitVec.toNat_ofInt, Int.toNat_of_nonneg (Int.emod_nonneg _ (by positivity))]
    norm_cast
  case value =>
    obtain ⟨hlo, hhi⟩ := TT_range p c
    exact BitVec.toInt_ofInt_eq_self (by have := Config.cw_ge_two; omega) hlo hhi

/-! A data word through a counter. -/

/-- Narrowing an encoded integer encodes it in fewer bits. -/
theorem setWidth_ofInt {w n : Nat} (hw : w ≤ n) (z : Int) : (BitVec.ofInt n z).setWidth w = BitVec.ofInt w z := by
  apply BitVec.eq_of_toInt_eq
  have hdvd : ((2 ^ w : Nat) : Int) ∣ ((2 ^ n : Nat) : Int) := Int.natCast_dvd_natCast.mpr (pow_dvd_pow 2 hw)
  rw [BitVec.toInt_setWidth, BitVec.toInt_ofInt, BitVec.toNat_ofInt, Int.toNat_of_nonneg (Int.emod_nonneg _ (by positivity)),
    ← Int.emod_bmod, Int.emod_emod_of_dvd _ hdvd, Int.emod_bmod]

theorem cntData_dataCnt_ofInt {w : Nat} (hpos : 0 < w) (hw : w ≤ 32) {z : Int}
    (hlo : -(2 ^ (w - 1)) ≤ z) (hhi : z < 2 ^ (w - 1)) :
    cntData (dataCnt w (BitVec.ofInt 32 z)) = BitVec.ofInt 32 z := by
  have hlow : dataCnt w (BitVec.ofInt 32 z) = BitVec.ofInt w z := setWidth_ofInt hw z
  rw [hlow, cntData, BitVec.signExtend, BitVec.toInt_ofInt_eq_self hpos hlo hhi]

theorem exec_setpos_attached {s : State} {k : Nat} {sl : Slot Config.cw} (h : s.slots[k]? = some sl) (v : DataWord) :
    exec (.setpos k v) s =
      .next (respond .ok 0#32 (modifySlot k (fun x => { x with cnt := dataCnt Config.cw v }) s)) :=
  congrArg Host.Outcome.next (onSlot_attached h)

theorem exec_getpos_attached {s : State} {k : Nat} {sl : Slot Config.cw} (h : s.slots[k]? = some sl) :
    exec (.getpos k) s = .next (respond .ok (cntData sl.cnt) s) :=
  congrArg Host.Outcome.next (onSlot_attached h)

/-- Settles O39: GETPOS finds the counter SETPOS assigned, and a value that fits passes both changes of width. -/
theorem setposThenGetposReadsBack : Obligations.SetposThenGetposReadsBack := by
  unfold Obligations.SetposThenGetposReadsBack
  intro s k z hk hlo hhi
  have hattached : s.slots[k]? = some s.slots[k] := List.getElem?_eq_getElem hk
  have hpos : 0 < Config.cw := by have := Config.cw_ge_two; omega
  refine ⟨_, _, exec_setpos_attached hattached _, exec_getpos_attached (by simp [hattached]; rfl), ?_⟩
  simp [cntData_dataCnt_ofInt hpos Config.cw_le hlo hhi]

/-! The packed sample and the response word. -/

/-- Settles O2: the four pairs of levels. -/
theorem samplePacksIAboveQ : Obligations.SamplePacksIAboveQ := by
  unfold Obligations.SamplePacksIAboveQ
  intro i q
  cases i <;> cases q <;> rfl

/-- Settles O4: the decoder computes on each word. -/
theorem sampleWordsDecode : Obligations.SampleWordsDecode :=
  ⟨rfl, rfl, rfl, rfl, rfl, rfl, rfl, rfl, rfl, rfl, rfl, rfl⟩

theorem response_word_toNat (r : Response) : r.word.toNat = r.status.code.toNat * 2 ^ 32 + r.data.toNat := by
  have hdata := r.data.isLt
  rw [Response.word, BitVec.toNat_append, ← Nat.shiftLeft_add_eq_or_of_lt hdata, Nat.shiftLeft_eq]

/-- Settles O9: the status stands above the 32 bits of data. -/
theorem responseWordAndCodes : Obligations.ResponseWordAndCodes :=
  ⟨response_word_toNat, rfl, rfl, rfl, rfl, rfl, rfl⟩

end Sys2Proof.Machine
end

section
/-! What the block puts out and takes in (R55, R59 to R61): the response of each instruction, the lines that a TICK reads, and the
ports. -/

namespace Sys2Proof.Machine

/-! Responses. -/

/-- A command's one response; a refused command does nothing else (R115). -/
theorem ExecEffect.command_response {i : Instr} {s t : State} (h : ExecEffect s i t) (hi : isCommand i = true) :
    ∃ r : Response, t.responses = s.responses ++ [r] ∧ r.Admissible ∧
      (r.status ≠ .ok → t = { s with responses := s.responses ++ [⟨r.status, 0#32⟩] }) := by
  cases h with
  | answered st d hcmd hadm =>
    refine ⟨⟨st, d⟩, rfl, hadm, fun hst => ?_⟩
    obtain rfl : d = 0#32 := hadm.2 hst
    rfl
  | lookedUp p c hcmd => exact absurd (hi.symm.trans hcmd) nofun
  | ignoredTick hidle => exact absurd hi nofun
  | ticked hrun => exact absurd hi nofun
  | attached pinI pinQ hfree => exact ⟨⟨.ok, natData s.occ⟩, by simp, admissible_ok _, fun hst => absurd rfl hst⟩
  | rateSet hz hrate => exact ⟨_, rfl, admissible_ok _, fun hst => absurd rfl hst⟩
  | cntSet k value hk => exact ⟨_, rfl, admissible_ok _, fun hst => absurd rfl hst⟩
  | invCleared k hk => exact ⟨_, rfl, admissible_ok _, fun hst => absurd rfl hst⟩

theorem ExecEffect.other_responses {i : Instr} {s t : State} (h : ExecEffect s i t) (hi : isCommand i = false) :
    t.responses = s.responses := by
  cases h with
  | answered st d hcmd hadm => exact absurd (hi.symm.trans hcmd) nofun
  | lookedUp p c hcmd => rfl
  | ignoredTick hidle => rfl
  | ticked hrun => exact tick_responses s
  | _ => exact absurd hi nofun

/-- Settles O45: every instruction has an effect, and each effect gives the responses its kind of instruction gives. -/
theorem everyCommandRespondsOnce : Obligations.EveryCommandRespondsOnce := by
  unfold Obligations.EveryCommandRespondsOnce
  intro i s
  obtain ⟨t, ht, heff⟩ := exec_effect i s
  exact ⟨t, ht, heff.command_response, heff.other_responses⟩

/-! The reads of a TICK. -/

/-- Settles O20: the scan's closed form. -/
theorem tickReadsLinesInSlotOrder : Obligations.TickReadsLinesInSlotOrder := by
  unfold Obligations.TickReadsLinesInSlotOrder
  intro s hrun
  refine ⟨_, exec_tick_running hrun, ?_⟩
  rw [tick_closed]
  exact ⟨rfl, rfl, rfl⟩

/-! The output ports. -/

theorem responsePulses_congr {s t : State} (h : t.responses = s.responses) : responsePulses t = responsePulses s := by
  rw [responsePulses, h, responsePulses]

/-- Settles O59: pulses are one for each entry of the trace and of the responses, so an instruction's are those of its
responses. -/
theorem portsPulseOncePerResponseAndRequest : Obligations.PortsPulseOncePerResponseAndRequest := by
  unfold Obligations.PortsPulseOncePerResponseAndRequest
  refine ⟨fun i s t h => ⟨fun hi => ?command, fun hi => ?other⟩, fun e s => ⟨_, requestPulses_emit e s, ?event⟩,
    fun n => ⟨rfl, rfl, rfl⟩⟩
  case command =>
    obtain ⟨r, hr, -⟩ := (effect_of_exec h).command_response hi
    exact ⟨r, hr, responsePulses_snoc hr⟩
  case other => exact responsePulses_congr ((effect_of_exec h).other_responses hi)
  case event => cases e <;> exact ⟨rfl, rfl, rfl⟩

/-! The command port against TICK. -/

theorem cmdReady_of_tickInProgress {s : State} (rst : Bool) (h : tickInProgress s = true) : cmdReady rst s = false := by
  simp [cmdReady, h]

theorem cmdReady_iff (rst : Bool) (s : State) : cmdReady rst s = true ↔ rst = false ∧ tickInProgress s = false := by
  simp [cmdReady]

/-- What an instant presents depends on `cmd_valid` by the handshake alone. -/
theorem presentPorts_not_taken {rst tickPort valid : Bool} {w : CmdWord} {s : State} (h : commandTaken rst valid s = false) :
    presentPorts rst tickPort valid w s = presentPorts rst tickPort false w s := by
  rw [presentPorts, presentPorts, h, commandTaken, Bool.false_and]

theorem presentPorts_taken {rst tickPort valid : Bool} {w : CmdWord} {s : State} (h : commandTaken rst valid s = true) :
    presentPorts rst tickPort valid w s =
      { s with arrivals := s.arrivals ++ [if tickPort = true then .tickWithCommand w else .packet (.cmd w)] } := by
  obtain ⟨-, hready⟩ := Bool.and_eq_true_iff.mp h
  obtain ⟨rfl, hno⟩ := (cmdReady_iff rst s).mp hready
  cases tickPort <;> simp [presentPorts, hno, h, arrivalOf]

/-- With no command valid, a strobe in a block that is doing no TICK is presented alone. -/
theorem presentPorts_tick {w : CmdWord} {s : State} (h : tickInProgress s = false) :
    presentPorts false true false w s = { s with arrivals := s.arrivals ++ [.packet (.ev 1#1)] } := by
  simp [presentPorts, h, commandTaken, arrivalOf]

theorem presentPorts_tick_again {valid : Bool} {w : CmdWord} {s : State} (h : tickInProgress s = true) :
    presentPorts false true valid w s = strobeAgain s := by
  simp [presentPorts, h]

theorem tickInProgress_of_no_arrivals {s : State} (h : s.arrivals = []) : tickInProgress s = false := by
  cases hfsm : s.fsm <;> simp [tickInProgress, hfsm, h]

theorem step_tick_packet {s : State} {rest : List Arrival} (hrun : s.fsm = .running)
    (h : s.arrivals = .packet (.ev 1#1) :: rest) : step s = .next (tick { s with arrivals := rest }) := by
  rw [step_packet h, runPacket_decoded (i := .tick) rfl]
  exact exec_tick_running hrun

/-- R150: the command of a strobe's instant waits behind the TICK. -/
theorem step_tickWithCommand {s : State} {w : CmdWord} {rest : List Arrival} (hrun : s.fsm = .running)
    (h : s.arrivals = .tickWithCommand w :: rest) :
    step s = .next (tick { s with arrivals := .packet (.cmd w) :: rest }) := by
  simp only [step, h]
  exact exec_tick_running hrun

theorem step_overlappedTick {s : State} {rest : List Arrival} (hrun : s.fsm = .running)
    (h : s.arrivals = .overlappedTick :: rest) : step s = .fault .tickDuringTick := by
  simp [step, h, overlapTick, hrun]

/-- A TICK in progress that is not strobed again is what the step does. -/
theorem step_of_tickInProgress {s : State} (h : tickInProgress s = true) (hone : s.arrivals.head? ≠ some .overlappedTick) :
    ∃ rest, step s = .next (tick { s with arrivals := rest }) := by
  obtain ⟨hrun, a, rest, harr, hstrobe⟩ := (tickInProgress_iff s).mp h
  obtain rfl | ⟨w, rfl⟩ | rfl := strobesTick_cases hstrobe
  · exact ⟨_, step_tick_packet hrun harr⟩
  · exact ⟨_, step_tickWithCommand hrun harr⟩
  · simp [harr] at hone

/-- A TICK strobed while nothing waits is in progress until its step, which leaves the command port ready. -/
theorem strobed_tick {s : State} (w : CmdWord) (hrun : s.fsm = .running) (hnone : s.arrivals = []) :
    tickInProgress (presentPorts false true false w s) = true ∧
      step (presentPorts false true false w s) = .next (tick s) ∧ cmdReady false (tick s) = true := by
  have hno := tickInProgress_of_no_arrivals hnone
  have hdone : { s with arrivals := [] } = s := by rw [← hnone]
  rw [presentPorts_tick hno, hnone, List.nil_append]
  refine ⟨(tickInProgress_iff _).mpr ⟨hrun, _, _, rfl, rfl⟩, ?_, by simp [hno]⟩
  calc step { s with arrivals := [.packet (.ev 1#1)] }
    _ = .next (tick { s with arrivals := [] }) := step_tick_packet hrun rfl
    _ = .next (tick s) := by rw [hdone]

/-- Settles O58: the handshake decides what an instant presents, and the strobe at the head of the arrivals what the step does. -/
theorem portsSerialiseCommandsAgainstTicks : Obligations.PortsSerialiseCommandsAgainstTicks := by
  unfold Obligations.PortsSerialiseCommandsAgainstTicks
  intro rst tickPort valid w s
  refine ⟨cmdReady_of_tickInProgress rst, presentPorts_not_taken, presentPorts_taken, step_of_tickInProgress, fun h => ?again,
    strobed_tick w⟩
  case again =>
    obtain ⟨hrun, -⟩ := (tickInProgress_iff s).mp h
    rw [presentPorts_tick_again h]
    exact step_overlappedTick hrun rfl

end Sys2Proof.Machine
end

section
/-! The transition table (R65 to R85). Every ordered pair is one of four kinds by the forward sequence of R84, and the kind gives
the value; what the table does under an exchange or a complement follows from what these do to the sequence. -/

namespace Sys2Proof.Machine

/-! The sixteen entries. -/

/-- Settles O10: the rows 0 and 1 of the lookup, at the machine's sentinel. -/
theorem tableRowsZeroAndOne : Obligations.TableRowsZeroAndOne := by
  obtain ⟨⟨h00, h01, h02, h03⟩, ⟨h10, h11, h12, h13⟩, -, -⟩ := ttLookup_entries Config.invalidDelta
  exact ⟨h00, h01, h02, h03, h10, h11, h12, h13⟩

/-- Settles O11: the rows 2 and 3 of the lookup, at the machine's sentinel. -/
theorem tableRowsTwoAndThree : Obligations.TableRowsTwoAndThree := by
  obtain ⟨-, -, ⟨h20, h21, h22, h23⟩, ⟨h30, h31, h32, h33⟩⟩ := ttLookup_entries Config.invalidDelta
  exact ⟨h20, h21, h22, h23, h30, h31, h32, h33⟩

/-- An instruction that looks up the pair (p, c) puts out the value of that entry. -/
theorem exec_lookup_value {i : Instr} {p c : QState} {v : Int} {s : State} (hexec : exec i s = .next (lookupEntry p c s))
    (hv : TT p c = v) : exec i s = .next { s with lookups := s.lookups ++ [v] } := by
  rw [hexec, lookupEntry, hv]

/-- Settles O12: each instruction looks up its own pair, whose value is that of O10 and O11. -/
theorem entryLookupsReturnTheirValue : Obligations.EntryLookupsReturnTheirValue := by
  intro s
  obtain ⟨h00, h01, h02, h03, h10, h11, h12, h13⟩ := tableRowsZeroAndOne
  obtain ⟨h20, h21, h22, h23, h30, h31, h32, h33⟩ := tableRowsTwoAndThree
  exact ⟨⟨exec_lookup_value rfl h00, exec_lookup_value rfl h01, exec_lookup_value rfl h02, exec_lookup_value rfl h03⟩,
    ⟨exec_lookup_value rfl h10, exec_lookup_value rfl h11, exec_lookup_value rfl h12, exec_lookup_value rfl h13⟩,
    ⟨exec_lookup_value rfl h20, exec_lookup_value rfl h21, exec_lookup_value rfl h22, exec_lookup_value rfl h23⟩,
    ⟨exec_lookup_value rfl h30, exec_lookup_value rfl h31, exec_lookup_value rfl h32, exec_lookup_value rfl h33⟩⟩

/-! The four kinds of pair and their values. -/

/-- No change, one step of the forward sequence either way, or both lines changed (R82, R84). -/
inductive PairKind : QState → QState → Prop
  | same (p : QState) : PairKind p p
  | forward (p : QState) : PairKind p (nextForward p)
  | reverse (p : QState) : PairKind (nextForward p) p
  | diagonal (p : QState) : PairKind p (3#2 - p)

theorem pairKind (p c : QState) : PairKind p c := by
  have hpair : c = p ∨ c = nextForward p ∨ p = nextForward c ∨ c = 3#2 - p := by revert p c; decide
  obtain rfl | rfl | rfl | rfl := hpair
  · exact .same _
  · exact .forward _
  · exact .reverse _
  · exact .diagonal _

@[simp] theorem TT_same (p : QState) : TT p p = 0 := by
  obtain rfl | rfl | rfl | rfl := qstate_cases p <;> rfl

@[simp] theorem TT_forward (p : QState) : TT p (nextForward p) = 1 := by
  obtain rfl | rfl | rfl | rfl := qstate_cases p <;> rfl

@[simp] theorem TT_reverse (p : QState) : TT (nextForward p) p = -1 := by
  obtain rfl | rfl | rfl | rfl := qstate_cases p <;> rfl

@[simp] theorem TT_diagonal (p : QState) : TT p (3#2 - p) = Config.invalidDelta := by
  obtain rfl | rfl | rfl | rfl := qstate_cases p <;> rfl

/-- Both lines changed exactly if the sample is the complement. -/
theorem xor_eq_three_iff (p c : QState) : p ^^^ c = 3#2 ↔ c = 3#2 - p := by
  revert p c; decide

theorem TT_of_xor_three {p c : QState} (h : p ^^^ c = 3#2) : TT p c = Config.invalidDelta := by
  rw [(xor_eq_three_iff p c).mp h, TT_diagonal]

/-- One line changed exactly if the pair is adjacent in the forward sequence. -/
theorem xor_adjacent_iff (p c : QState) : p ^^^ c = 1#2 ∨ p ^^^ c = 2#2 ↔ c = nextForward p ∨ p = nextForward c := by
  revert p c; decide

theorem invalidDelta_not_small : Config.invalidDelta ≠ -1 ∧ Config.invalidDelta ≠ 0 ∧ Config.invalidDelta ≠ 1 :=
  Config.sentinel_not_small Config.cw_ge_two Config.rawInvalid

theorem TT_eq_one_iff (p c : QState) : TT p c = 1 ↔ c = nextForward p := by
  obtain ⟨-, -, hne⟩ := invalidDelta_not_small
  constructor
  · intro h
    cases pairKind p c with
    | forward p => rfl
    | same p => simp at h
    | reverse c => simp at h
    | diagonal p => exact absurd ((TT_diagonal p).symm.trans h) hne
  · rintro rfl
    exact TT_forward p

/-! The rows. -/

/-- The forward cycle from a state visits every state once. -/
theorem forwardCycle_perm (p : QState) : (forwardCycle p).Perm [0, 1, 2, 3] := by
  revert p; decide

theorem nextForward_nextForward (p : QState) : nextForward (nextForward p) = 3#2 - p := by
  revert p; decide

/-- Along the forward cycle a row reads +1, INVALID_DELTA, -1, 0. -/
theorem map_TT_forwardCycle (p : QState) : (forwardCycle p).map (TT p) = [1, Config.invalidDelta, -1, 0] := by
  have hlast : nextForward (nextForward (nextForward (nextForward p))) = p := by revert p; decide
  have hreverse : TT p (nextForward (nextForward (nextForward p))) = -1 := by
    simpa only [hlast] using TT_reverse (nextForward (nextForward (nextForward p)))
  have hdiagonal : TT p (nextForward (nextForward p)) = Config.invalidDelta := by rw [nextForward_nextForward, TT_diagonal]
  simp only [forwardCycle, List.map_cons, List.map_nil, TT_forward, hdiagonal, hreverse, TT_same]

/-- One row of the matrix, in the order of the samples. -/
def ttRow (p : QState) : List Int := [TT p 0, TT p 1, TT p 2, TT p 3]

theorem ttRow_perm (p : QState) : (ttRow p).Perm [1, Config.invalidDelta, -1, 0] :=
  map_TT_forwardCycle p ▸ ((forwardCycle_perm p).map (TT p)).symm

/-- A row holds each of the four values once, as the sentinel is none of the others (R4). -/
theorem count_ttRow {v : Int} (hv : v ∈ [1, Config.invalidDelta, -1, 0]) (p : QState) : (ttRow p).count v = 1 := by
  obtain ⟨hneg, hzero, hone⟩ := invalidDelta_not_small
  have hnodup : [1, Config.invalidDelta, -1, 0].Nodup := by simp [hneg, hzero, hone.symm]
  rw [(ttRow_perm p).count_eq, List.count_eq_one_of_mem hnodup hv]

theorem count_ttRows {v : Int} (hv : v ∈ [1, Config.invalidDelta, -1, 0]) :
    ([0#2, 1#2, 2#2, 3#2].flatMap ttRow).count v = 4 := by
  simp [count_ttRow hv]

/-- Settles O13: the values by the kind of the pair, and the counts because the row is the row of the forward cycle rearranged. -/
theorem pairClassDecidesValue : Obligations.PairClassDecidesValue := by
  refine ⟨fun p c => ⟨?same, ?adjacent, ?diagonal, ?diagonalPairs⟩, fun p => ?row, ?all⟩
  case same =>
    intro h
    rw [BitVec.xor_eq_zero_iff.mp h, TT_same]
  case adjacent =>
    intro h
    obtain rfl | rfl := (xor_adjacent_iff p c).mp h
    · exact .inl (TT_forward p)
    · exact .inr (TT_reverse c)
  case diagonal => exact TT_of_xor_three
  case diagonalPairs => revert p c; decide
  case row => exact ⟨count_ttRow (by simp) p, count_ttRow (by simp) p, count_ttRow (by simp) p, count_ttRow (by simp) p⟩
  case all => exact ⟨count_ttRows (by simp), count_ttRows (by simp), count_ttRows (by simp), count_ttRows (by simp)⟩

/-! The symmetries. -/

/-- Off the diagonals the table is antisymmetric (R83). -/
theorem TT_swap {p c : QState} (h : p ^^^ c ≠ 3#2) : TT c p = -TT p c := by
  cases pairKind p c with
  | same p => simp
  | forward p => simp
  | reverse c => simp
  | diagonal p => exact absurd ((xor_eq_three_iff _ _).mpr rfl) h

/-- On the diagonals it is symmetric (R83). -/
theorem TT_swap_diagonal {p c : QState} (h : p ^^^ c = 3#2) : TT c p = TT p c := by
  rw [TT_of_xor_three h, TT_of_xor_three (BitVec.xor_comm c p ▸ h)]

theorem TT_eq_neg_one_iff (p c : QState) : TT p c = -1 ↔ p = nextForward c := by
  obtain ⟨hneg, -, hone⟩ := invalidDelta_not_small
  rw [← TT_eq_one_iff]
  by_cases h : p ^^^ c = 3#2
  · rw [TT_swap_diagonal h, TT_of_xor_three h]
    exact iff_of_false hneg hone
  · rw [TT_swap h, neg_eq_iff_eq_neg]

/-- Complementing both lines carries the forward sequence into itself. -/
theorem nextForward_complement (p : QState) : nextForward (3#2 - p) = 3#2 - nextForward p := by
  revert p; decide

/-- R85, the complement of both lines. -/
theorem TT_complement (p c : QState) : TT (3#2 - p) (3#2 - c) = TT p c := by
  cases pairKind p c with
  | same p => simp
  | forward p => rw [← nextForward_complement, TT_forward, TT_forward]
  | reverse c => rw [← nextForward_complement, TT_reverse, TT_reverse]
  | diagonal p => rw [TT_diagonal, TT_diagonal]

/-- The state with the lines I and Q exchanged (R85). -/
def exchangeLines (p : QState) : QState := p.extractLsb' 0 1 ++ p.extractLsb' 1 1

/-- Exchanging the lines reverses the forward sequence. -/
theorem nextForward_exchangeLines (p : QState) : nextForward (exchangeLines (nextForward p)) = exchangeLines p := by
  revert p; decide

/-- R85, the exchange of the lines. -/
theorem TT_exchangeLines {p c : QState} (h : p ^^^ c = 1#2 ∨ p ^^^ c = 2#2) :
    TT (exchangeLines p) (exchangeLines c) = -TT p c := by
  obtain rfl | rfl := (xor_adjacent_iff p c).mp h
  · rw [← nextForward_exchangeLines p, TT_reverse, TT_forward]
  · rw [← nextForward_exchangeLines c, TT_forward, TT_reverse, neg_neg]

/-- Settles O14: one lemma for the closed form and one for each symmetry. -/
theorem tableClosedFormAndSymmetries : Obligations.TableClosedFormAndSymmetries :=
  fun p c => ⟨TT_eq_one_iff p c, TT_eq_neg_one_iff p c, TT_swap, TT_swap_diagonal, TT_complement p c, TT_exchangeLines⟩

end Sys2Proof.Machine
end

section
/-! One TICK of a Running machine (spec/41_sampler_tick.md): the deadline, the registers it leaves alone, and slot by slot the
stored sample, the counter and the flag. -/

namespace Sys2Proof.Machine

/-! The state that TICK answers. -/

theorem eq_of_exec_tick_idle {s t : State} (hidle : s.fsm = .idle) (h : exec .tick s = .next t) : t = s :=
  Host.Outcome.next.inj (h.symm.trans (exec_tick_idle hidle))

theorem eq_tick_of_exec {s t : State} (hrun : s.fsm = .running) (h : exec .tick s = .next t) : t = tick s :=
  Host.Outcome.next.inj (h.symm.trans (exec_tick_running hrun))

/-! The deadline and the frame. -/

/-- Settles O15: the scan of the slots does not touch the deadline, and the addition of TW-bit words is that of R91. -/
theorem tickAdvancesDeadlineByIncrement : Obligations.TickAdvancesDeadlineByIncrement := by
  unfold Obligations.TickAdvancesDeadlineByIncrement
  intro s hrun
  exact ⟨_, exec_tick_running hrun, by rw [tick_deadline, BitVec.toNat_add], tick_incr s⟩

/-- TICK keeps every slot's identifiers (R99). -/
theorem tick_pins (s : State) :
    (tick s).slots.map (fun sl => (sl.pinI, sl.pinQ)) = s.slots.map (fun sl => (sl.pinI, sl.pinQ)) := by
  refine List.ext_getElem? fun k => ?_
  rw [List.getElem?_map, List.getElem?_map, tick_slot, Option.map_map]
  rfl

/-- Settles O19: in Idle the state itself is answered, and in Running the frame is read off the closed form of TICK. -/
theorem tickFrame : Obligations.TickFrame := by
  unfold Obligations.TickFrame
  intro s t h
  cases hfsm : s.fsm with
  | idle =>
    obtain rfl := eq_of_exec_tick_idle hfsm h
    simp [hfsm]
  | running =>
    obtain rfl := eq_tick_of_exec hfsm h
    refine ⟨tick_occ s, (tick_fsm s).trans hfsm, tick_rateHz s, tick_incr s, tick_pins s, tick_trace s, tick_responses s, ?_⟩
    rw [tick_closed]
    exact ⟨rfl, rfl, rfl⟩

/-! One slot. -/

/-- TICK samples every attached slot with the two answers that stand at its place (R92, R93). -/
theorem tick_slot_attached {s : State} {k : Nat} {a : Slot Config.cw} (ha : s.slots[k]? = some a) :
    (tick s).slots[k]? = some (sampleSlot Config.invalidDelta (s.sample k a) a) := by
  rw [tick_slot, ha, Option.map_some]

/-- Settles O16: the sampled slot, written out. -/
theorem tickUpdatesEveryAttachedSlot : Obligations.TickUpdatesEveryAttachedSlot := by
  unfold Obligations.TickUpdatesEveryAttachedSlot
  intro s hrun
  exact ⟨_, exec_tick_running hrun, tick_occ s, fun k sl hsl => tick_slot_attached hsl⟩

/-- The slot found after a TICK is the slot before it, sampled with the state it now stores. -/
theorem slot_of_exec_tick {s t : State} {k : Nat} {a b : Slot Config.cw} (hrun : s.fsm = .running)
    (h : exec .tick s = .next t) (ha : s.slots[k]? = some a) (hb : t.slots[k]? = some b) :
    b = sampleSlot Config.invalidDelta b.state a := by
  obtain rfl := eq_tick_of_exec hrun h
  obtain rfl := Option.some.inj ((tick_slot_attached ha).symm.trans hb)
  rw [sampleSlot_state]

/-- Adding an integer to a counter, in two's complement (R95). -/
theorem toInt_add_encInt {w : Nat} (x : BitVec w) (z : Int) : (x + encInt w z).toInt = (x.toInt + z).bmod (2 ^ w) := by
  rw [encInt, BitVec.toInt_add, BitVec.toInt_ofInt, Int.add_bmod_bmod]

/-- Adding an integer to a counter, in bit patterns (R95). -/
theorem toNat_add_encInt {w : Nat} (x : BitVec w) (z : Int) : ((x + encInt w z).toNat : Int) = (x.toNat + z) % 2 ^ w := by
  have hnonneg : 0 ≤ z % 2 ^ w := Int.emod_nonneg _ (by positivity)
  rw [encInt, BitVec.toNat_add, BitVec.toNat_ofInt]
  push_cast
  rw [Int.toNat_of_nonneg hnonneg, Int.add_emod_emod]

/-- Settles O17: the counter has added the table value of the stored pair, and both readings of that sum wrap. -/
theorem tickCounterWrapsInSignedTerms : Obligations.TickCounterWrapsInSignedTerms := by
  unfold Obligations.TickCounterWrapsInSignedTerms
  intro s t k a b hrun h ha hb
  have hcnt : b.cnt = a.cnt + encInt Config.cw (TT a.state b.state) := congrArg Slot.cnt (slot_of_exec_tick hrun h ha hb)
  rw [hcnt]
  exact ⟨toNat_add_encInt _ _, toInt_add_encInt _ _⟩

/-- Settles O18: the new flag is the old one or the class of the stored pair. -/
theorem tickSetsInvOnDiagonalOnly : Obligations.TickSetsInvOnDiagonalOnly := by
  unfold Obligations.TickSetsInvOnDiagonalOnly
  intro s t k a b hrun h ha hb
  have hinv : b.inv = (a.inv || decide (a.state ^^^ b.state = 3#2)) := congrArg Slot.inv (slot_of_exec_tick hrun h ha hb)
  refine ⟨fun hdiag => ?diagonal, fun hother => ?other⟩
  case diagonal => rw [hinv, decide_eq_true hdiag, Bool.or_true]
  case other => rw [hinv, decide_eq_false hother, Bool.or_false]

/-- Settles O21: equal answers are an equal sample, and a slot after a TICK is made of the slot and its sample. -/
theorem tickSlotsAreIndependent : Obligations.TickSlotsAreIndependent := by
  unfold Obligations.TickSlotsAreIndependent
  intro s u s' u' k sl hs hu hs' hu' hsl husl hI hQ
  obtain rfl := eq_tick_of_exec hs hs'
  obtain rfl := eq_tick_of_exec hu hu'
  have hsample : s.sample k sl = u.sample k sl := congrArg₂ pack hI hQ
  refine ⟨?slot, fun hdeadline hincr => ?deadline⟩
  case slot => rw [tick_slot_attached hsl, tick_slot_attached husl, hsample]
  case deadline => rw [tick_deadline, tick_deadline, hdeadline, hincr]

end Sys2Proof.Machine
end

section
/-! One slot along a sequence of instructions (R100 to R103): whatever else happens between the TICKs, the slot is sampled once with
each of its samples, and what that does to its state, flag and counter is a walk through the table. -/

namespace Sys2Proof.Machine

/-! A slot along its samples. -/

/-- The slot sampled with each of `cs` in turn. -/
def walkSlot (a : Slot Config.cw) (cs : List QState) : Slot Config.cw :=
  cs.foldl (fun sl c => sampleSlot Config.invalidDelta c sl) a

@[simp] theorem walkSlot_nil (a : Slot Config.cw) : walkSlot a [] = a := rfl

@[simp] theorem walkSlot_cons (a : Slot Config.cw) (c : QState) (cs : List QState) :
    walkSlot a (c :: cs) = walkSlot (sampleSlot Config.invalidDelta c a) cs := rfl

theorem walkSlot_append (a : Slot Config.cw) (cs ds : List QState) : walkSlot a (cs ++ ds) = walkSlot (walkSlot a cs) ds :=
  List.foldl_append

/-- The samples of a sequence are those of its first instruction and those of the rest. -/
theorem samplesOf_cons {i : Instr} {s t : State} (h : exec i s = .next t) (k : Nat) (is : List Instr) :
    samplesOf k (i :: is) s = samplesOf k [i] s ++ samplesOf k is t := by
  simp [samplesOf, h]

theorem samplesOf_tick {s : State} {k : Nat} {a : Slot Config.cw} (hrun : s.fsm = .running) (ha : s.slots[k]? = some a) :
    samplesOf k [.tick] s = [s.sample k a] := by
  simp [samplesOf, exec_tick_running hrun, hrun, slot_eq, ha]

theorem samplesOf_of_no_tick {i : Instr} {s : State} (hno : ¬(i = .tick ∧ s.fsm = .running)) (k : Nat) :
    samplesOf k [i] s = [] := by
  obtain ⟨t, ht, -⟩ := exec_effect i s
  simp [samplesOf, ht, hno]

/-- Of the operations that R27 lets write slot `k`, only TICK is left. -/
theorem SlotWrite.eq_of_leavesSlot {i : Instr} {k : Nat} {a b : Slot Config.cw} (h : SlotWrite i k a b) (htick : i ≠ .tick)
    (hleaves : leavesSlot k i) : b = a := by
  obtain ⟨hpinI, hpinQ, hstate, hcnt, hinv⟩ := h
  have hstate' : b.state = a.state := by_contra fun hne => htick (hstate hne)
  have hcnt' : b.cnt = a.cnt := by
    by_contra hne
    obtain rfl | ⟨v, rfl⟩ := hcnt hne
    · exact htick rfl
    · exact hleaves rfl
  have hinv' : b.inv = a.inv := by
    by_contra hne
    obtain rfl | rfl := hinv hne
    · exact htick rfl
    · exact hleaves rfl
  cases a
  cases b
  exact (Slot.mk.injEq ..).mpr ⟨hpinI, hpinQ, hstate', hcnt', hinv'⟩

/-- One instruction samples the slot with its one sample, or leaves it as it is and has none. -/
theorem exec_slot {i : Instr} {s t : State} {k : Nat} {a : Slot Config.cw} (h : exec i s = .next t)
    (ha : s.slots[k]? = some a) (hleaves : leavesSlot k i) : t.slots[k]? = some (walkSlot a (samplesOf k [i] s)) := by
  by_cases htick : i = .tick
  · subst htick
    cases hfsm : s.fsm with
    | idle =>
      obtain rfl := eq_of_exec_tick_idle hfsm h
      rw [samplesOf_of_no_tick (by simp [hfsm]), walkSlot_nil, ha]
    | running =>
      obtain rfl := eq_tick_of_exec hfsm h
      rw [samplesOf_tick hfsm ha, walkSlot_cons, walkSlot_nil, tick_slot_attached ha]
  · obtain ⟨b, hb, hwrite⟩ := (effect_of_exec h).slot ha
    rw [samplesOf_of_no_tick (fun hno => htick hno.1), walkSlot_nil, hb, hwrite.eq_of_leavesSlot htick hleaves]

/-- A sequence that neither assigns the slot's counter nor clears its flag completes, and walks the slot along its samples. -/
theorem execAll_slot (is : List Instr) {s : State} {k : Nat} {a : Slot Config.cw} (ha : s.slots[k]? = some a)
    (hleaves : ∀ i ∈ is, leavesSlot k i) :
    ∃ t, execAll is s = .next t ∧ t.slots[k]? = some (walkSlot a (samplesOf k is s)) := by
  induction is generalizing s a with
  | nil => exact ⟨s, rfl, ha⟩
  | cons i is ih =>
    obtain ⟨hi, his⟩ := List.forall_mem_cons.mp hleaves
    obtain ⟨u, hu, -⟩ := exec_effect i s
    obtain ⟨t, ht, hslot⟩ := ih (exec_slot hu ha hi) his
    exact ⟨t, by rw [execAll_cons hu, ht], by rw [samplesOf_cons hu, walkSlot_append, hslot]⟩

/-! State, flag and counter of the walk. -/

theorem walkSlot_state (a : Slot Config.cw) (cs : List QState) : (walkSlot a cs).state = cs.getLastD a.state := by
  induction cs generalizing a with
  | nil => rfl
  | cons c cs ih => rw [walkSlot_cons, ih, sampleSlot_state, List.getLastD_cons]

theorem walkSlot_inv (a : Slot Config.cw) (cs : List QState) :
    (walkSlot a cs).inv = (a.inv || decide (0 < diagonalSteps a.state cs)) := by
  induction cs generalizing a with
  | nil => simp [diagonalSteps]
  | cons c cs ih =>
    rw [walkSlot_cons, ih, sampleSlot_state, sampleSlot_inv, diagonalSteps, isDiagonal, Bool.or_assoc]
    by_cases hdiag : a.state ^^^ c = 3#2 <;> simp [hdiag]

/-- What a walk adds to the counter, before it wraps (R100, R103). -/
def walkCount (p : QState) (cs : List QState) : Int :=
  forwardSteps p cs - reverseSteps p cs + diagonalSteps p cs * Config.invalidDelta

/-- A table value counts its pair: +1 forward, -1 reverse, INVALID_DELTA on a diagonal (R82, R84). -/
theorem TT_eq_walkCount (p c : QState) : TT p c = walkCount p [c] := by
  cases pairKind p c with
  | same p =>
    have hsteps : forwardSteps p [p] = 0 ∧ reverseSteps p [p] = 0 ∧ diagonalSteps p [p] = 0 := by revert p; decide
    simp [walkCount, hsteps]
  | forward p =>
    have hsteps : forwardSteps p [nextForward p] = 1 ∧ reverseSteps p [nextForward p] = 0 ∧
        diagonalSteps p [nextForward p] = 0 := by revert p; decide
    simp [walkCount, hsteps]
  | reverse c =>
    have hsteps : forwardSteps (nextForward c) [c] = 0 ∧ reverseSteps (nextForward c) [c] = 1 ∧
        diagonalSteps (nextForward c) [c] = 0 := by revert c; decide
    simp [walkCount, hsteps]
  | diagonal p =>
    have hsteps : forwardSteps p [3#2 - p] = 0 ∧ reverseSteps p [3#2 - p] = 0 ∧ diagonalSteps p [3#2 - p] = 1 := by
      revert p; decide
    simp [walkCount, hsteps]

theorem walkCount_cons (p c : QState) (cs : List QState) : walkCount p (c :: cs) = TT p c + walkCount c cs := by
  rw [TT_eq_walkCount]
  simp only [walkCount, forwardSteps, reverseSteps, diagonalSteps]
  push_cast
  ring

theorem encInt_add (w : Nat) (y z : Int) : encInt w (y + z) = encInt w y + encInt w z := BitVec.ofInt_add y z

theorem walkSlot_cnt (a : Slot Config.cw) (cs : List QState) :
    (walkSlot a cs).cnt = a.cnt + encInt Config.cw (walkCount a.state cs) := by
  induction cs generalizing a with
  | nil => simp [walkCount, forwardSteps, reverseSteps, diagonalSteps, encInt]
  | cons c cs ih =>
    rw [walkSlot_cons, ih, sampleSlot_state, sampleSlot_cnt, walkCount_cons, encInt_add, BitVec.add_assoc, TT]

theorem walkSlot_toInt_cnt (a : Slot Config.cw) (cs : List QState) :
    (walkSlot a cs).cnt.toInt = (a.cnt.toInt + walkCount a.state cs).bmod (2 ^ Config.cw) := by
  rw [walkSlot_cnt, toInt_add_encInt]

/-! Counting along a sequence. -/

/-- Settles O24: the slot walks along its samples, and the walk adds the sentinel for each diagonal pair. -/
theorem eachDiagonalAddsTheSentinelOnce : Obligations.EachDiagonalAddsTheSentinelOnce := by
  unfold Obligations.EachDiagonalAddsTheSentinelOnce
  intro is s k a ha hleaves
  obtain ⟨t, ht, hslot⟩ := execAll_slot is ha hleaves
  refine ⟨t, _, ht, hslot, walkSlot_inv a _, ?_⟩
  rw [walkSlot_toInt_cnt, walkCount, ← add_assoc, ← add_sub_assoc]

/-- Settles O23: the walk of O24 without diagonal pairs, and it ends in its last sample. -/
theorem exactCountingWithoutDiagonals : Obligations.ExactCountingWithoutDiagonals := by
  unfold Obligations.ExactCountingWithoutDiagonals
  intro is s k a ha hleaves hnone
  obtain ⟨t, ht, hslot⟩ := execAll_slot is ha hleaves
  refine ⟨t, _, ht, hslot, walkSlot_state a _, ?inv, ?cnt⟩
  case inv => simp [walkSlot_inv, hnone]
  case cnt =>
    have hcount : walkCount a.state (samplesOf k is s) =
        forwardSteps a.state (samplesOf k is s) - reverseSteps a.state (samplesOf k is s) := by simp [walkCount, hnone]
    rw [walkSlot_toInt_cnt, hcount, ← add_sub_assoc]

/-! Forward line-cycles. -/

/-- One forward line-cycle takes four forward steps and no other (R101). -/
theorem walkCount_forwardCycle (p : QState) : walkCount p (forwardCycle p) = 4 := by
  have hsteps : forwardSteps p (forwardCycle p) = 4 ∧ reverseSteps p (forwardCycle p) = 0 ∧
      diagonalSteps p (forwardCycle p) = 0 := by revert p; decide
  simp [walkCount, hsteps]

theorem walkSlot_forwardCycles (a : Slot Config.cw) (n : Nat) :
    (walkSlot a (List.replicate n (forwardCycle a.state)).flatten).state = a.state ∧
      (walkSlot a (List.replicate n (forwardCycle a.state)).flatten).cnt = a.cnt + BitVec.ofNat Config.cw (4 * n) := by
  induction n generalizing a with
  | zero => simp
  | succ n ih =>
    have hstate : (walkSlot a (forwardCycle a.state)).state = a.state := rfl
    have hcnt : (walkSlot a (forwardCycle a.state)).cnt = a.cnt + BitVec.ofNat Config.cw 4 := by
      rw [walkSlot_cnt, walkCount_forwardCycle]
      rfl
    obtain ⟨ihstate, ihcnt⟩ := hstate ▸ ih (walkSlot a (forwardCycle a.state))
    rw [List.replicate_succ, List.flatten_cons, walkSlot_append, Nat.mul_succ, Nat.add_comm, BitVec.ofNat_add,
      ← BitVec.add_assoc, ← hcnt]
    exact ⟨ihstate, ihcnt⟩

/-- Settles O25: the slot walks along its samples, and each cycle of the walk adds 4 and comes back. -/
theorem forwardLineCyclesCountFourEach : Obligations.ForwardLineCyclesCountFourEach := by
  unfold Obligations.ForwardLineCyclesCountFourEach
  intro is s k n a ha hleaves hcycles
  obtain ⟨t, ht, hslot⟩ := execAll_slot is ha hleaves
  rw [hcycles] at hslot
  obtain ⟨hstate, hcnt⟩ := walkSlot_forwardCycles a n
  exact ⟨t, _, ht, hslot, hstate, hcnt⟩

end Sys2Proof.Machine
end

section
/-! The control machine (spec/42_sampler_control_fsm.md): what keeps the block Idle, the one transition to Running and the start of
the source that goes with it, and the deadline along a sequence of instructions in Running. -/

namespace Sys2Proof.Machine

/-! Idle and waiting. -/

/-- Settles O51: the first case of the step. -/
theorem nothingPresentedNothingDone : Obligations.NothingPresentedNothingDone := by
  unfold Obligations.NothingPresentedNothingDone
  intro s hnone
  simp [step, hnone]

/-- Settles O22: a high strobe decodes to TICK, and TICK in Idle answers the state it is run on. -/
theorem tickInIdleIsIgnored : Obligations.TickInIdleIsIgnored := by
  unfold Obligations.TickInIdleIsIgnored
  intro s rest hidle harr
  rw [step_packet harr, runPacket_decoded (i := .tick) rfl]
  exact exec_tick_idle hidle

/-! Leaving Idle. -/

/-- No slot is attached in Idle (I2 of R23). -/
theorem State.Inv.occ_of_idle {s : State} (hs : s.Inv) (hidle : s.fsm = .idle) : s.occ = 0 := by
  have hrun := hs.running_iff
  simp only [hidle, reduceCtorEq, false_iff] at hrun
  omega

/-- Settles O29: in Idle no slot is attached, so there is room for one, and its index is 0. -/
theorem firstAttachAlwaysSucceeds : Obligations.FirstAttachAlwaysSucceeds := by
  unfold Obligations.FirstAttachAlwaysSucceeds
  intro s pinI pinQ hs hidle
  have hocc : s.occ = 0 := hs.occ_of_idle hidle
  have hslots : s.slots = [] := List.eq_nil_of_length_eq_zero hocc
  have hfree : s.occ < Config.maxEncoders := hocc ▸ Config.maxEncoders_pos
  refine ⟨_, exec_attach_free hfree, attachSlot_fsm pinI pinQ s, ?occ, ?responses⟩
  case occ => simp [State.occ, hslots]
  case responses => simp [hocc, natData]

/-! Staying in Running. -/

theorem ExecEffect.running {i : Instr} {s t : State} (h : ExecEffect s i t) (hrun : s.fsm = .running) : t.fsm = .running := by
  cases h with
  | attached pinI pinQ hfree => exact attachSlot_fsm pinI pinQ s
  | ticked _ => exact (tick_fsm s).trans hrun
  | _ => exact hrun

theorem ExecEffect.occ_le {i : Instr} {s t : State} (h : ExecEffect s i t) : s.occ ≤ t.occ := by
  cases h with
  | attached pinI pinQ hfree => simp [State.occ]
  | ticked hrun => exact (tick_occ s).ge
  | cntSet k value hk => exact (List.length_modify ..).ge
  | invCleared k hk => exact (List.length_modify ..).ge
  | _ => exact Nat.le_refl s.occ

/-- Settles O30: every effect of an instruction keeps Running and the occupancy, and the other effects of a step but a reset write
no register. -/
theorem onlyResetLeavesRunning : Obligations.OnlyResetLeavesRunning := by
  unfold Obligations.OnlyResetLeavesRunning
  intro s t hstep hnoReset
  cases effect_of_step hstep with
  | waited hnone => exact ⟨id, Nat.le_refl _⟩
  | dropped a rest harr => exact ⟨id, Nat.le_refl _⟩
  | ran i rest heff => exact ⟨heff.running, heff.occ_le⟩
  | wasReset rest harr => exact absurd (by rw [harr, List.head?_cons]) hnoReset

/-! The start of the source. -/

theorem sourceStarts_append (xs ys : List Event) : sourceStarts (xs ++ ys) = sourceStarts xs + sourceStarts ys := by
  induction xs with
  | nil => simp [sourceStarts]
  | cons e xs ih => cases e <;> simp [sourceStarts, ih, Nat.add_right_comm]

theorem sourceStarts_startIfIdle (s : State) :
    sourceStarts (startIfIdle s).trace = sourceStarts s.trace + (if s.fsm = .idle then 1 else 0) := by
  cases hfsm : s.fsm with
  | idle => simp [startIfIdle_idle hfsm, sourceStarts_append, sourceStarts]
  | running => simp [startIfIdle_running hfsm]

/-- The lines that an ATTACH configures start nothing. -/
theorem sourceStarts_attachSlot (pinI pinQ : PinId) (s : State) :
    sourceStarts (attachSlot pinI pinQ s).trace = sourceStarts s.trace + (if s.fsm = .idle then 1 else 0) := by
  cases hfsm : s.fsm <;> simp [attachSlot, sourceStarts_startIfIdle, sourceStarts_append, sourceStarts, hfsm]

theorem ExecEffect.sourceStarts_eq {i : Instr} {s t : State} (h : ExecEffect s i t) :
    sourceStarts t.trace = sourceStarts s.trace + (if s.fsm = .idle ∧ t.fsm = .running then 1 else 0) := by
  have hkept : t.trace = s.trace → t.fsm = s.fsm →
      sourceStarts t.trace = sourceStarts s.trace + (if s.fsm = .idle ∧ t.fsm = .running then 1 else 0) := by
    intro htrace hfsm
    cases hs : s.fsm <;> simp [htrace, hfsm, hs]
  cases h with
  | attached pinI pinQ hfree => simp [sourceStarts_attachSlot]
  | ticked hrun => exact hkept (tick_trace s) (tick_fsm s)
  | _ => exact hkept rfl rfl

/-- The control state changes from Idle to Running only, because Running is kept. -/
theorem ExecEffect.idle_to_running {i : Instr} {s t : State} (h : ExecEffect s i t) (hne : t.fsm ≠ s.fsm) :
    s.fsm = .idle ∧ t.fsm = .running := by
  cases hs : s.fsm with
  | running => exact absurd ((h.running hs).trans hs.symm) hne
  | idle =>
    cases ht : t.fsm with
    | running => exact ⟨rfl, rfl⟩
    | idle => exact absurd (ht.trans hs.symm) hne

/-- Settles O31: the starts are counted effect by effect, and of the instructions ATTACH alone writes `fsm`. -/
theorem sourceStartsExactlyOnTheTransition : Obligations.SourceStartsExactlyOnTheTransition := by
  unfold Obligations.SourceStartsExactlyOnTheTransition
  intro i s t h
  have heff := effect_of_exec h
  refine ⟨heff.sourceStarts_eq, fun hne => ?transition⟩
  case transition =>
    obtain ⟨hs, ht⟩ := heff.idle_to_running hne
    exact ⟨hs, ht, heff.occ_fsm (.inr hne)⟩

/-! The deadline. -/

/-- The increments of a sequence are that of its first instruction and those of the rest. -/
theorem incrementsOf_cons {i : Instr} {s t : State} (h : exec i s = .next t) (is : List Instr) :
    incrementsOf (i :: is) s = incrementsOf [i] s + incrementsOf is t := by
  simp [incrementsOf, h]

/-- In Running one instruction adds to the deadline the increment of its TICK, or nothing. -/
theorem exec_deadline_of_running {i : Instr} {s t : State} (hrun : s.fsm = .running) (h : exec i s = .next t) :
    t.deadline = s.deadline + incrementsOf [i] s := by
  by_cases htick : i = .tick
  · subst htick
    obtain rfl := eq_tick_of_exec hrun h
    simp [incrementsOf, h, hrun]
  · have hkept : t.deadline = s.deadline := by
      by_contra hne
      obtain rfl | ⟨hidle, -⟩ := (effect_of_exec h).deadline hne
      · exact htick rfl
      · exact absurd (hrun.symm.trans hidle) nofun
    simp [incrementsOf, h, htick, hkept]

/-- Settles O26, by induction on the sequence: each instruction completes, stays in Running and adds its own increment. -/
theorem deadlineAccumulatesIncrements : Obligations.DeadlineAccumulatesIncrements := by
  unfold Obligations.DeadlineAccumulatesIncrements
  intro is
  induction is with
  | nil => exact fun s hrun => ⟨s, rfl, hrun, by simp [incrementsOf]⟩
  | cons i is ih =>
    intro s hrun
    obtain ⟨u, hu, heff⟩ := exec_effect i s
    obtain ⟨t, ht, htrun, hdeadline⟩ := ih u (heff.running hrun)
    refine ⟨t, (execAll_cons hu is).trans ht, htrun, ?_⟩
    calc t.deadline
      _ = u.deadline + incrementsOf is u := hdeadline
      _ = s.deadline + incrementsOf [i] s + incrementsOf is u := by rw [exec_deadline_of_running hrun hu]
      _ = s.deadline + incrementsOf (i :: is) s := by rw [incrementsOf_cons hu is, BitVec.add_assoc]

end Sys2Proof.Machine
end

section
/-! The six host commands (spec/43_host_operations.md): each one's whole next state where it is accepted and where it is refused, and
the handle that ATTACH gives, which every step but a reset keeps valid. -/

namespace Sys2Proof.Machine

/-! Handles. -/

/-- No instruction changes an attached slot's identifiers (R27). -/
theorem ExecEffect.handle_valid {i : Instr} {s t : State} (h : ExecEffect s i t) {k : Nat} {a : Slot Config.cw}
    (ha : s.slots[k]? = some a) : ∃ b, t.slots[k]? = some b ∧ b.pinI = a.pinI ∧ b.pinQ = a.pinQ := by
  obtain ⟨b, hb, hI, hQ, -⟩ := h.slot ha
  exact ⟨b, hb, hI, hQ⟩

/-- Settles O57: every effect of an instruction keeps the identifiers, and the other effects of a step but a reset write no slot. -/
theorem handlesStayValidUntilReset : Obligations.HandlesStayValidUntilReset := by
  unfold Obligations.HandlesStayValidUntilReset
  intro s t k a hstep hnoReset ha
  cases effect_of_step hstep with
  | waited hnone => exact ⟨a, ha, rfl, rfl⟩
  | dropped arrival rest harr => exact ⟨a, ha, rfl, rfl⟩
  | ran i rest heff => exact heff.handle_valid ha
  | wasReset rest harr => exact absurd (by rw [harr, List.head?_cons]) hnoReset

/-! ATTACH. -/

/-- In Running the source is already started, so ATTACH configures the lines and fills the slot, and nothing else (R116). -/
theorem attachSlot_of_running {pinI pinQ : PinId} {s : State} (h : s.fsm = .running) :
    attachSlot pinI pinQ s = { s with
      slots := s.slots ++ [freshSlot Config.cw pinI pinQ]
      trace := s.trace ++ [.configureInput pinI, .configureInput pinQ] } := by
  rw [attachSlot, startIfIdle_running (by simpa using h)]
  simp [addSlot, emit]

/-- In Idle ATTACH also starts the source, after the lines are configured, and loads the platform's deadline (R106, R107). -/
theorem attachSlot_of_idle {pinI pinQ : PinId} {s : State} (h : s.fsm = .idle) :
    attachSlot pinI pinQ s = { s with
      slots := s.slots ++ [freshSlot Config.cw pinI pinQ]
      fsm := .running
      trace := s.trace ++ [.configureInput pinI, .configureInput pinQ] ++ [.startSource s.incr]
      deadline := s.firstDeadline
      deadlines := s.deadlines.tail
      draws := s.draws + 1 } := by
  rw [attachSlot, startIfIdle_idle (by simpa using h)]
  simp [addSlot, emit, State.firstDeadline]

/-- Settles O27: ATTACH with room in the registry, in each of the two control states. -/
theorem attachFillsTheNextSlot : Obligations.AttachFillsTheNextSlot := by
  unfold Obligations.AttachFillsTheNextSlot
  intro s pinI pinQ hfree
  rw [exec_attach_free hfree]
  refine ⟨fun hrun => ?running, fun hidle => ?idle⟩
  case running => rw [attachSlot_of_running hrun]; rfl
  case idle => rw [attachSlot_of_idle hidle]; rfl

/-- Settles O28: ATTACH on a full registry is refused, and a refusal only answers. -/
theorem attachBeyondCapacityIsNoOp : Obligations.AttachBeyondCapacityIsNoOp := by
  unfold Obligations.AttachBeyondCapacityIsNoOp
  intro s pinI pinQ hfull
  exact exec_attach_full hfull

/-! SETRATE. -/

/-- Settles O33: the range of R118 is that of R5. -/
theorem setrateAcceptsRatesInRange : Obligations.SetrateAcceptsRatesInRange := by
  unfold Obligations.SetrateAcceptsRatesInRange
  intro s hz hmin hmax
  exact exec_setrate_accepted ⟨hmin, hmax⟩

/-- Settles O34: a rate on either side of the range is not accepted, and a refusal only answers. -/
theorem setrateRejectsRatesOutOfRange : Obligations.SetrateRejectsRatesOutOfRange := by
  unfold Obligations.SetrateRejectsRatesOutOfRange
  intro s hz hout
  have hrate : ¬ Config.RateOk hz := by
    rintro ⟨hmin, hmax⟩
    simp only [Config.rateMin, Config.rateMax] at hmin hmax
    omega
  exact exec_setrate_rejected hrate

/-! Reads of an attached slot. -/

/-- Settles O36: GETPOS answers the counter, and sign extension keeps the signed value. -/
theorem getposReturnsTheCounter : Obligations.GetposReturnsTheCounter := by
  unfold Obligations.GetposReturnsTheCounter
  intro s k sl hsl
  exact exec_getpos_attached hsl

theorem exec_getstat_attached {s : State} {k : Nat} {sl : Slot Config.cw} (h : s.slots[k]? = some sl) :
    exec (.getstat k) s = .next (respond .ok (statData sl) s) :=
  congrArg Host.Outcome.next (onSlot_attached h)

/-- The status word in arithmetic form: the flag stands above the two bits of the state (R122). -/
theorem statData_eq_ofNat {w : Nat} (sl : Slot w) :
    statData sl = BitVec.ofNat 32 ((if sl.inv then 4 else 0) + sl.state.toNat) := by
  have hbits : ∀ (inv : Bool) (p : QState),
      (0#29 ++ BitVec.ofBool inv ++ p : DataWord) = BitVec.ofNat 32 ((if inv then 4 else 0) + p.toNat) := by decide
  exact hbits sl.inv sl.state

/-- Settles O40: GETSTAT answers the status word. -/
theorem getstatReturnsFlagAndState : Obligations.GetstatReturnsFlagAndState := by
  unfold Obligations.GetstatReturnsFlagAndState
  intro s k sl hsl
  rw [exec_getstat_attached hsl, statData_eq_ofNat]
  rfl

/-! Writes to an attached slot. -/

/-- Changing a slot whose contents are known is assigning it. -/
theorem modifySlot_attached {k : Nat} {s : State} {sl : Slot Config.cw} (h : s.slots[k]? = some sl)
    (f : Slot Config.cw → Slot Config.cw) : modifySlot k f s = { s with slots := s.slots.set k (f sl) } := by
  simp [modifySlot, List.modify_eq_set_getElem?, h]

/-- Narrowing a data word keeps its low bits, that is, its value modulo `2 ^ w` (R53). -/
theorem dataCnt_eq_ofNat (w : Nat) (v : DataWord) : dataCnt w v = BitVec.ofNat w v.toNat :=
  (BitVec.ofNat_toNat w v).symm

/-- Settles O38: SETPOS changes the counter of its slot, to the value's low bits. -/
theorem setposAssignsTheCounter : Obligations.SetposAssignsTheCounter := by
  unfold Obligations.SetposAssignsTheCounter
  intro s k v sl hsl
  rw [exec_setpos_attached hsl, modifySlot_attached hsl, dataCnt_eq_ofNat]
  rfl

theorem exec_clrinv_attached {s : State} {k : Nat} {sl : Slot Config.cw} (h : s.slots[k]? = some sl) :
    exec (.clrinv k) s = .next (respond .ok 0#32 (modifySlot k (fun x => { x with inv := false }) s)) :=
  congrArg Host.Outcome.next (onSlot_attached h)

/-- Settles O41: CLRINV changes the flag of its slot. -/
theorem clrinvClearsTheFlag : Obligations.ClrinvClearsTheFlag := by
  unfold Obligations.ClrinvClearsTheFlag
  intro s k sl hsl
  rw [exec_clrinv_attached hsl, modifySlot_attached hsl]
  rfl

/-! Refused commands. -/

/-- Settles O42: the four commands go through the one check of the slot index, which fails. -/
theorem badSlotIsRefused : Obligations.BadSlotIsRefused := by
  unfold Obligations.BadSlotIsRefused
  intro s k v hfree
  have hrefused (f : Slot Config.cw → State → State) : Host.Outcome.next (onSlot k f s) =
      (.next (respond .errSlot 0#32 s) : Host.Outcome State Fault Refusal) := congrArg _ (onSlot_free hfree)
  exact List.forall_iff_forall_mem.mp ⟨hrefused _, hrefused _, hrefused _, hrefused _⟩

/-- Settles O43: the ten reserved opcodes have one meaning, which ignores their other bits. -/
theorem reservedOpcodesAreIllegal : Obligations.ReservedOpcodesAreIllegal := by
  unfold Obligations.ReservedOpcodesAreIllegal
  intro s x
  exact List.forall_iff_forall_mem.mp ⟨rfl, rfl, rfl, rfl, rfl, rfl, rfl, rfl, rfl, rfl⟩

end Sys2Proof.Machine
end

section
/-! Errors and simultaneous events (spec/60_exceptions.md): the one presentation on which a step stops, and the order in which a
strobe and a command word of one instant take effect. -/

namespace Sys2Proof.Machine

/-! When a step stops. -/

/-- A packet is run or answered, and neither stops the block (R140). -/
theorem runPacket_next (p : Packet) (s : State) : ∃ t, runPacket p s = .next t := by
  cases hdec : decode p with
  | ok i =>
    obtain ⟨t, ht, -⟩ := exec_effect i s
    exact ⟨t, (runPacket_decoded hdec s).trans ht⟩
  | error r => exact ⟨_, runPacket_rejected hdec s⟩

/-- Only an overlapped strobe in Running keeps a step from going on (R148). -/
theorem step_next_of_not_overlapped {s : State} (h : ¬(s.arrivals.head? = some .overlappedTick ∧ s.fsm = .running)) :
    ∃ t, step s = .next t := by
  unfold step
  split
  next hnone => exact ⟨s, rfl⟩
  next p rest harr => exact runPacket_next p _
  next w rest harr =>
    obtain ⟨t, ht, -⟩ := exec_effect .tick { s with arrivals := .packet (.cmd w) :: rest }
    exact ⟨t, ht⟩
  next rest harr =>
    cases hfsm : s.fsm with
    | idle => exact ⟨{ s with arrivals := rest }, by simp [overlapTick, hfsm]⟩
    | running => exact absurd ⟨by rw [harr, List.head?_cons], hfsm⟩ h
  next rest harr => exact ⟨_, rfl⟩

/-- Settles O48: an overlapped strobe in Running is the fault, and every other step goes on. -/
theorem stepStopsOnlyOnOverlappedTick : Obligations.StepStopsOnlyOnOverlappedTick := by
  unfold Obligations.StepStopsOnlyOnOverlappedTick
  intro s
  by_cases h : s.arrivals.head? = some .overlappedTick ∧ s.fsm = .running
  · obtain ⟨hhead, hrun⟩ := h
    obtain ⟨rest, harr⟩ := List.head?_eq_some_iff.mp hhead
    simp [step_overlappedTick hrun harr, hhead, hrun]
  · obtain ⟨t, ht⟩ := step_next_of_not_overlapped h
    simp [ht, h]

/-! A strobe and a command word of one instant. -/

/-- TICK neither reads nor changes what waits to be presented. -/
theorem tick_withArrivals (s : State) (xs : List Arrival) :
    tick { s with arrivals := xs } = { tick s with arrivals := xs } := by
  simp only [tick_closed]
  rfl

theorem exec_tick_withArrivals {s t : State} (h : exec .tick s = .next t) (xs : List Arrival) :
    exec .tick { s with arrivals := xs } = .next { t with arrivals := xs } := by
  obtain hidle | hrun : s.fsm = .idle ∨ s.fsm = .running := by cases s.fsm <;> simp
  · rw [eq_of_exec_tick_idle hidle h]
    exact exec_tick_idle hidle
  · rw [eq_tick_of_exec hrun h, ← tick_withArrivals]
    exact exec_tick_running hrun

/-! Runs of the host's interface, for any machine behind it. -/

theorem run_one (M : Host.Core) (s : M.State) : M.run 1 s = M.step s := by
  cases h : M.step s <;> simp [Host.Core.run, h]

theorem run_succ_of_step {M : Host.Core} {s t : M.State} (h : M.step s = .next t) (n : Nat) : M.run (n + 1) s = M.run n t := by
  simp [Host.Core.run, h]

/-- Settles O50: the first step is the TICK with the command word put back at the head of the arrivals, which TICK does not touch;
the second is the step from there. -/
theorem tickBeforeSimultaneousCommand : Obligations.TickBeforeSimultaneousCommand := by
  unfold Obligations.TickBeforeSimultaneousCommand
  intro s w rest harr
  obtain ⟨t, ht, -⟩ := exec_effect .tick { s with arrivals := rest }
  have hstep : step s = .next { t with arrivals := .packet (.cmd w) :: rest } := by
    simpa only [step, harr] using exec_tick_withArrivals ht (.packet (.cmd w) :: rest)
  exact ⟨t, ht, (run_succ_of_step (M := core) hstep 1).trans (run_one core _)⟩

end Sys2Proof.Machine
end

section
/-! Reset and hazards (spec/70_reset_and_hazards.md): what a reset leaves behind, and the first TICK that samples a slot just
attached, whose stored state is still the 0 that ATTACH gave it. -/

namespace Sys2Proof.Machine

/-! Reset. -/

theorem step_reset {s : State} {rest : List Arrival} (h : s.arrivals = .reset :: rest) :
    step s = .next (applyReset { s with arrivals := rest }) := by
  simp only [step, h]

/-- Settles O53: the step is `applyReset`, which takes the registers from the reset state and nothing else. -/
theorem resetDiscardsEverything : Obligations.ResetDiscardsEverything := by
  unfold Obligations.ResetDiscardsEverything
  intro s rest harr
  exact step_reset harr

/-! The first TICK after an ATTACH. -/

theorem attached_of_exec {pinI pinQ : PinId} {s t : State} (hfree : s.occ < Config.maxEncoders)
    (h : exec (.attach pinI pinQ) s = .next t) :
    t.fsm = .running ∧ t.slots[s.occ]? = some (freshSlot Config.cw pinI pinQ) := by
  obtain rfl := Host.Outcome.next.inj ((exec_attach_free hfree).symm.trans h)
  simp [occ_eq]

/-- From state 0 and counter 0 the counter becomes the table value of the sample, and the flag its class (R167). -/
theorem sampleSlot_freshSlot (pinI pinQ : PinId) (c : QState) :
    sampleSlot Config.invalidDelta c (freshSlot Config.cw pinI pinQ) =
      { pinI := pinI, pinQ := pinQ, state := c, cnt := encInt Config.cw (TT 0#2 c), inv := isDiagonal 0#2 c } := by
  simp [sampleSlot, freshSlot, invAfter, TT]

/-- A counter that holds a table value reads as that value (R48). -/
theorem toInt_encInt_TT (p c : QState) : (encInt Config.cw (TT p c)).toInt = TT p c :=
  have ⟨_, _, _, _, h⟩ := tableValuesSurviveCounterWidth
  h p c

/-- Settles O32: the TICK samples a fresh slot, and the sample of each pair of levels selects an entry of the table's first row. -/
theorem firstTickAfterAttach : Obligations.FirstTickAfterAttach := by
  unfold Obligations.FirstTickAfterAttach
  intro s t pinI pinQ hfree h
  obtain ⟨hrun, hslot⟩ := attached_of_exec hfree h
  refine ⟨_, _, exec_tick_running hrun, tick_slot_attached hslot, ?_⟩
  rw [sampleSlot_freshSlot]
  have hsample : t.sample s.occ (freshSlot Config.cw pinI pinQ) =
      pack (t.answer (2 * s.occ) pinI) (t.answer (2 * s.occ + 1) pinQ) := rfl
  refine ⟨fun hI hQ => ?bothLow, fun hI hQ => ?onlyQ, fun hI hQ => ?onlyI, fun hI hQ => ?bothHigh⟩ <;>
    rw [hsample, hI, hQ]
  case bothLow => exact ⟨toInt_encInt_TT 0#2 0#2, rfl⟩
  case onlyQ => exact ⟨rfl, rfl⟩
  case onlyI => exact ⟨toInt_encInt_TT 0#2 2#2, rfl⟩
  case bothHigh => exact ⟨toInt_encInt_TT 0#2 3#2, rfl⟩

end Sys2Proof.Machine
end

section
/-! Encoder and decoder undo each other on the well-formed instructions of all three formats (spec/30_encoding.md sections 1
to 7). -/

namespace Sys2Proof

/-! What the fields carry. -/

theorem slotFits_toNat (slot : BitVec 4) : slotFits slot.toNat = true :=
  decide_eq_true slot.isLt

theorem rateFits_toNat (arg : DataWord) : rateFits arg.toNat = true :=
  decide_eq_true arg.isLt

theorem mod_of_slotFits {slot : Nat} (h : slotFits slot = true) : slot % 16 = slot :=
  Nat.mod_eq_of_lt (of_decide_eq_true h)

theorem mod_of_rateFits {hz : Nat} (h : rateFits hz = true) : hz % 4294967296 = hz :=
  Nat.mod_eq_of_lt (of_decide_eq_true h)

/-! From an instruction to its packet and back. -/

@[simp] theorem needZeroSlot_cmdWord_zero (op : BitVec 4) (arg : DataWord) (i : Instr) :
    needZeroSlot (cmdWord op 0#4 arg) i = .ok i :=
  if_pos (slotOf_cmdWord op 0#4 arg)

@[simp] theorem needZeroArg_cmdWord_zero (op slot : BitVec 4) (i : Instr) :
    needZeroArg (cmdWord op slot 0#32) i = .ok i :=
  if_pos (argOf_cmdWord op slot 0#32)

/-- A command's integer operand passes its field because it fits (R62); the word's other fields come back as they were put. -/
theorem decode_encode {i : Instr} (hwf : i.wf = true) : decode (encode i) = .ok i := by
  cases i
  case attach pinI pinQ => simp [encode, decode_cmd, decodeCommand]
  case setrate hz => simp [encode, decode_cmd, decodeCommand, mod_of_rateFits hwf]
  case getpos slot => simp [encode, decode_cmd, decodeCommand, mod_of_slotFits hwf]
  case setpos slot value => simp [encode, decode_cmd, decodeCommand, mod_of_slotFits hwf]
  case getstat slot => simp [encode, decode_cmd, decodeCommand, mod_of_slotFits hwf]
  case clrinv slot => simp [encode, decode_cmd, decodeCommand, mod_of_slotFits hwf]
  case reserved0 | reserved7 | reserved8 | reserved9 | reservedA | reservedB | reservedC | reservedD | reservedE | reservedF =>
    simp [encode, decode_cmd, decodeCommand]
  -- TICK and the sixteen entries, which carry no operand.
  all_goals rfl

/-! From a packet to its instruction and back. -/

theorem needZeroSlot_eq_ok {w : CmdWord} {i j : Instr} : needZeroSlot w i = .ok j ↔ slotOf w = 0#4 ∧ i = j := by
  unfold needZeroSlot
  split <;> simp [*]

theorem needZeroArg_eq_ok {w : CmdWord} {i j : Instr} : needZeroArg w i = .ok j ↔ argOf w = 0#32 ∧ i = j := by
  unfold needZeroArg
  split <;> simp [*]

theorem opOf_eq_ofNat {w : CmdWord} {op : Nat} (hop : (opOf w).toNat = op) : opOf w = BitVec.ofNat 4 op := by
  rw [← hop, BitVec.ofNat_toNat, BitVec.setWidth_eq]

theorem reservedWord_restOf {w : CmdWord} {op : Nat} (hop : (opOf w).toNat = op) :
    reservedWord (BitVec.ofNat 4 op) (restOf w) = w := by
  rw [← opOf_eq_ofNat hop, reservedWord_fields]

/-- The word of opcode `op` with the fields of `w` is `w`, the `slot` field written as the number an instruction has for it. -/
theorem cmdWord_slotOf_argOf {w : CmdWord} {op : Nat} (hop : (opOf w).toNat = op) :
    cmdWord (BitVec.ofNat 4 op) (BitVec.ofNat 4 (slotOf w).toNat) (argOf w) = w := by
  rw [← opOf_eq_ofNat hop, BitVec.ofNat_toNat, BitVec.setWidth_eq, cmdWord_fields]

theorem cmdWord_argOf_of_slot_zero {w : CmdWord} {op : Nat} (hop : (opOf w).toNat = op) (hslot : slotOf w = 0#4) :
    cmdWord (BitVec.ofNat 4 op) 0#4 (argOf w) = w := by
  rw [← opOf_eq_ofNat hop, ← hslot, cmdWord_fields]

theorem cmdWord_slotOf_of_arg_zero {w : CmdWord} {op : Nat} (hop : (opOf w).toNat = op) (harg : argOf w = 0#32) :
    cmdWord (BitVec.ofNat 4 op) (BitVec.ofNat 4 (slotOf w).toNat) 0#32 = w := by
  rw [← harg, cmdWord_slotOf_argOf hop]

/-- An accepted word loses nothing: its must-be-zero field is zero, and the instruction keeps the others (R57). -/
theorem encode_of_decodeCommand {w : CmdWord} {i : Instr} (h : decodeCommand w = .ok i) :
    i.wf = true ∧ encode i = .cmd w := by
  unfold decodeCommand at h
  split at h
  case h_2 hop =>    -- ATTACH
    obtain ⟨hslot, rfl⟩ := needZeroSlot_eq_ok.mp h
    exact ⟨rfl, by rw [encode, pins_fields, cmdWord_argOf_of_slot_zero hop hslot]⟩
  case h_3 hop =>    -- SETRATE
    obtain ⟨hslot, rfl⟩ := needZeroSlot_eq_ok.mp h
    exact ⟨rateFits_toNat _, by
      rw [encode, BitVec.ofNat_toNat, BitVec.setWidth_eq, cmdWord_argOf_of_slot_zero hop hslot]⟩
  case h_5 hop =>    -- SETPOS
    cases h
    exact ⟨slotFits_toNat _, congrArg Packet.cmd (cmdWord_slotOf_argOf hop)⟩
  case h_4 hop | h_6 hop | h_7 hop =>    -- GETPOS, GETSTAT, CLRINV
    obtain ⟨harg, rfl⟩ := needZeroArg_eq_ok.mp h
    exact ⟨slotFits_toNat _, congrArg Packet.cmd (cmdWord_slotOf_of_arg_zero hop harg)⟩
  case h_16 =>       -- 0xF, the one opcode not named
    have hop : (opOf w).toNat = 15 := by
      have := (opOf w).isLt
      simp only [imp_false] at *
      omega
    cases h
    exact ⟨rfl, congrArg Packet.cmd (reservedWord_restOf hop)⟩
  -- The other nine reserved opcodes.
  all_goals
    next hop =>
      cases h
      exact ⟨rfl, congrArg Packet.cmd (reservedWord_restOf hop)⟩

theorem encode_decodeEntry (idx : BitVec 4) : (decodeEntry idx).wf = true ∧ encode (decodeEntry idx) = .tt idx := by
  revert idx; decide

theorem encode_of_decode {p : Packet} {i : Instr} (h : decode p = .ok i) : i.wf = true ∧ encode i = p := by
  cases p with
  | ev strobe =>
    rw [decode] at h
    split at h
    next hstrobe => cases h; exact ⟨rfl, congrArg Packet.ev hstrobe.symm⟩
    next => cases h
  | cmd w => exact encode_of_decodeCommand h
  | tt idx => cases h; exact encode_decodeEntry idx

/-- Settles O6: each field of the packet gives back the operand put in it. -/
theorem decodeOfEncodeIsIdentity : Obligations.DecodeOfEncodeIsIdentity := by
  unfold Obligations.DecodeOfEncodeIsIdentity
  exact fun _ hwf => decode_encode hwf

/-- Settles O7: by the packet's format, a packet is made of the fields its instruction keeps. -/
theorem encodeOfDecodeIsIdentity : Obligations.EncodeOfDecodeIsIdentity := by
  unfold Obligations.EncodeOfDecodeIsIdentity
  exact fun _ _ h => encode_of_decode h

end Sys2Proof
end
